-- ==== Sys2Proof/Word.lean ====
section
/-! DEFINITION. The two bit-vector types the spec works with: the byte (00_scope.md R6) and the 64-bit
offset into the code segment (10_state.md R13, 20_memory.md R28). -/

namespace Sys2Proof

/-- One byte of the code image (R6: "A byte is 8 bits"). -/
abbrev Byte := BitVec 8

/-- An offset into the code segment, the width of the instruction-pointer cell (R13, R28). -/
abbrev Offset := BitVec 64

end Sys2Proof
end

