-- ==== Sys2Proof/Config.lean ====
section
/-! DEFINITION. The configuration record of 10_state.md R22 (the parameters of 00_scope.md R5): constant during a
run, an argument of every claim. The code image and the exit set, the other two parameters of R5, are fields of
State. The spec leaves no value of an instruction open, so there is no free value (no opaque constant) here. -/

namespace Sys2Proof

/-- The operating modes, one per exception section of the source (R5, R136). -/
inductive Mode where
  | real           -- real-address mode
  | protectedMode  -- protected mode
  | v8086          -- virtual-8086 mode
  | compat         -- compatibility mode
  | long64         -- 64-bit mode
  deriving DecidableEq, Repr

/-- A default size attribute, in force when no override is present (R5: 16 or 32). -/
inductive DefaultSize where
  | bits16
  | bits32
  deriving DecidableEq, Repr

/-- An effective operand-size or address-size attribute (R23: 16, 32 or 64). -/
inductive Size where
  | bits16
  | bits32
  | bits64
  deriving DecidableEq, Repr

/-- The configuration `(MODE, DEF_OPSIZE, DEF_ADDRSIZE, CS_LIMIT, VA_BITS)` of R22. -/
structure Config where
  /-- `MODE`. -/
  mode : Mode
  /-- `DEF_OPSIZE`; not read in 64-bit mode. -/
  defOpSize : DefaultSize
  /-- `DEF_ADDRSIZE`; not read in 64-bit mode. -/
  defAddrSize : DefaultSize
  /-- `CS_LIMIT`, the largest offset within the code segment (R20, R34); not read in 64-bit mode. -/
  csLimit : BitVec 32
  /-- `VA_BITS`, the number of implemented linear-address bits (R36); read in 64-bit mode only. -/
  vaBits : Nat
  deriving DecidableEq, Repr

/-- R22: a configuration is well-formed when `1 ≤ VA_BITS ≤ 64` (the two default sizes are 16 or 32 by their
type). -/
def Config.wf (c : Config) : Bool := decide (1 ≤ c.vaBits) && decide (c.vaBits ≤ 64)

/-- The configuration `State.reset` holds. PRESUMED (notes/assumptions/1.md): the spec states no value; this is the
family's state after reset (real-address mode, 16-bit defaults, 64-KByte limit), with the spec's default of 48 for
`VA_BITS`. No statement rests on it but those that say so. -/
def Config.reset : Config where
  mode := .real
  defOpSize := .bits16
  defAddrSize := .bits16
  csLimit := 0x0000FFFF#32
  vaBits := 48

end Sys2Proof
end

