-- ==== Sys2Proof/Machine/State.lean ====
section
/-! DEFINITION. The state: the architectural state of 10_state.md R26, and beside it the parameters of a run (00_scope.md
R5) that the interface can carry nowhere else: the configuration, the code image and the exit set. No instruction writes
those three (R22, R24). Plain data. -/

namespace Sys2Proof.Machine

/-- The code image `CODE` (R5, R28): a partial map from offset to byte, as the list of the offsets it is defined on with
their bytes, offsets strictly rising. An offset that is not listed is one where `CODE` is undefined: it reads as no
value, and a fetch there is refused (R29). -/
abbrev Memory := List Host.Cell

/-- The canonical form of a code image: offsets strictly rise and are 64-bit (R28). Since an unlisted offset reads as
no value, no entry can equal what an unlisted offset reads as. -/
def Memory.wf (m : Memory) : Bool :=
  decide (m.Pairwise (fun x y => x.1 < y.1)) && m.all (fun x => decide (x.1 < 2 ^ 64))

/-- The exit set `EXIT` (R5, R142), as the strictly rising list of its offsets. -/
abbrev Exits := List Nat

/-- The canonical form of an exit set. -/
def Exits.wf (e : Exits) : Bool :=
  decide (e.Pairwise (fun x y => x < y)) && e.all (fun x => decide (x < 2 ^ 64))

/-- The state (R26 for the first seven fields, R22 and R24 for the other three). -/
structure State where
  /-- The instruction pointer, 64 bits; RIP, EIP and IP16 are views of it (R13). -/
  ip : Offset
  /-- Carry flag (R16). -/
  CF : Bool
  /-- Parity flag (R16). -/
  PF : Bool
  /-- Zero flag (R16). -/
  ZF : Bool
  /-- Sign flag (R16). -/
  SF : Bool
  /-- Overflow flag (R16). -/
  OF : Bool
  /-- The count register, 64 bits; ECX and CX are views of it (R17). -/
  RCX : BitVec 64
  /-- The configuration of the run (R22). -/
  config : Config
  /-- The code image of the run (R24, R28). -/
  code : Memory
  /-- The exit set of the run (R24, R142). -/
  exits : Exits
  deriving DecidableEq, Repr

/-- Why the machine stops with an exception: the fault outcome `Fault(vector, error_code, at)` of 60_exceptions.md R131,
in the three spellings of R126. `off` is `at`, the offset of the first byte of the faulting instruction. A fault is
terminal: the spec gives no delivery and no return (R131, R135). Safe: the machine stops where a chip would go on in a
handler. -/
inductive Fault where
  /-- `#GP(0)`, error code 0. Raised in protected and compatibility mode by a taken jump beyond the limit (R127), in
  64-bit mode by a taken jump to a non-canonical target (R129), and in these modes by a fetch outside the segment or at
  a non-canonical offset (R29). Safe. -/
  | gp0 (off : Offset)
  /-- `#GP`, no error code. Raised in real-address and virtual-8086 mode by a taken jump beyond the limit or above FFFFH
  (R128), and there by a fetch beyond the limit (R29). Safe. -/
  | gp (off : Offset)
  /-- `#UD`, no error code. Raised in every mode by an instruction of the family with the LOCK byte (R130). Safe. -/
  | ud (off : Offset)
  deriving DecidableEq, Repr

/-- Why a step gives no next state though nothing faults: the refusals of R132, the end of a run (R142), and two answers
no decoded instruction meets. Each is safe: the machine stops where a chip would go on. -/
inductive Refusal where
  /-- An instruction with no meaning yet; `exec` raises it for none. Safe. -/
  | notModelled (mnemonic : String)
  /-- `OpcodeOutOfScope` (R50, R58, R132): the bytes are no instruction of the family. Raised by the decoder. Safe. -/
  | opcodeOutOfScope
  /-- `DuplicatePrefix` (R50, R132): one admitted leading byte twice. Raised by the decoder. Safe. -/
  | duplicatePrefix
  /-- `NearJccWith66HIn64BitMode` (R53, R132): 66H before `0F 8x` in 64-bit mode. Raised by the decoder. Safe. -/
  | nearJccWith66HIn64BitMode
  /-- `FetchOutsideImage(off)` (R29, R132): the code image has no byte at `off`. Raised by the fetch. Safe. -/
  | fetchOutsideImage (off : Offset)
  /-- No byte string spells the instruction under this configuration (R54, R58 (b) and (c)). Raised by the shared
  operation on an instruction that is not well-formed, which the decoder never answers. Safe. -/
  | notEncodable
  /-- `Exit` (R10, R142): the run is over, successfully; `ip` is in the exit set and nothing was fetched. Raised by the
  step. It stands among the refusals because a step has three outcomes only (notes/assumptions/3.md). Safe. -/
  | exit
  deriving DecidableEq, Repr

/-- The machine right after reset. The spec gives no reset value (R27, R139): the values are PRESUMED
(notes/assumptions/1.md), but for the code image and the exit set, which are empty: nothing has been loaded. -/
def State.reset : State where
  ip := 0x000000000000FFF0#64
  CF := false
  PF := false
  ZF := false
  SF := false
  OF := false
  RCX := 0#64
  config := Config.reset
  code := []
  exits := []

end Sys2Proof.Machine
end

