-- ==== Sys2Proof/Syntax.lean ====
section
/-! DEFINITION. The syntax: one constructor of `Instr` per row of spec/opcode_table.json (93 rows: 30 short, 3 count,
30 near with a 16-bit offset, 30 near with a 32-bit offset; 30_encoding.md R57). Every constructor carries the
admitted bytes that stood before the opcode, in their order (R50), and the offset operand at the width of its form
(R44 to R47). The operand-size and address-size attributes are no part of the syntax: they are computed from the
configuration and the leading bytes (R23, Machine/Forms.lean). -/

namespace Sys2Proof

/-- The three leading bytes the decoder admits (R50). -/
inductive Prefix where
  | opSize    -- 66H, operand-size override
  | addrSize  -- 67H, address-size override
  | lock      -- F0H, LOCK
  deriving DecidableEq, Repr

/-- The leading bytes of one instruction, first byte first. -/
abbrev Prefixes := List Prefix

/-- The sixteen flag conditions, in the order of their condition number `cc` (R48, R57, R63). -/
inductive Cond where
  | o  -- 0H: OF = 1
  | no  -- 1H: OF = 0
  | b  -- 2H: CF = 1
  | ae  -- 3H: CF = 0
  | e  -- 4H: ZF = 1
  | ne  -- 5H: ZF = 0
  | be  -- 6H: CF = 1 or ZF = 1
  | a  -- 7H: CF = 0 and ZF = 0
  | s  -- 8H: SF = 1
  | ns  -- 9H: SF = 0
  | p  -- AH: PF = 1
  | np  -- BH: PF = 0
  | l  -- CH: SF ≠ OF
  | ge  -- DH: SF = OF
  | le  -- EH: ZF = 1 or SF ≠ OF
  | g  -- FH: ZF = 0 and SF = OF
  deriving DecidableEq, Repr

/-- The instructions: one constructor per row of the opcode table; the mnemonics of one opcode are separate
constructors with the same meaning and the same encoding (R61). -/
inductive Instr where
  -- Format S, `7x cb` (R73 to R88).
  /-- `JO rel8`, jump if OF = 1 (R73). -/
  | joRel8 (p : Prefixes) (r : BitVec 8)
  /-- `JNO rel8`, jump if OF = 0 (R74). -/
  | jnoRel8 (p : Prefixes) (r : BitVec 8)
  /-- `JB rel8`, jump if CF = 1 (R75). -/
  | jbRel8 (p : Prefixes) (r : BitVec 8)
  /-- `JC rel8`, jump if CF = 1 (R75). -/
  | jcRel8 (p : Prefixes) (r : BitVec 8)
  /-- `JNAE rel8`, jump if CF = 1 (R75). -/
  | jnaeRel8 (p : Prefixes) (r : BitVec 8)
  /-- `JAE rel8`, jump if CF = 0 (R76). -/
  | jaeRel8 (p : Prefixes) (r : BitVec 8)
  /-- `JNB rel8`, jump if CF = 0 (R76). -/
  | jnbRel8 (p : Prefixes) (r : BitVec 8)
  /-- `JNC rel8`, jump if CF = 0 (R76). -/
  | jncRel8 (p : Prefixes) (r : BitVec 8)
  /-- `JE rel8`, jump if ZF = 1 (R77). -/
  | jeRel8 (p : Prefixes) (r : BitVec 8)
  /-- `JZ rel8`, jump if ZF = 1 (R77). -/
  | jzRel8 (p : Prefixes) (r : BitVec 8)
  /-- `JNE rel8`, jump if ZF = 0 (R78). -/
  | jneRel8 (p : Prefixes) (r : BitVec 8)
  /-- `JNZ rel8`, jump if ZF = 0 (R78). -/
  | jnzRel8 (p : Prefixes) (r : BitVec 8)
  /-- `JBE rel8`, jump if CF = 1 or ZF = 1 (R79). -/
  | jbeRel8 (p : Prefixes) (r : BitVec 8)
  /-- `JNA rel8`, jump if CF = 1 or ZF = 1 (R79). -/
  | jnaRel8 (p : Prefixes) (r : BitVec 8)
  /-- `JA rel8`, jump if CF = 0 and ZF = 0 (R80). -/
  | jaRel8 (p : Prefixes) (r : BitVec 8)
  /-- `JNBE rel8`, jump if CF = 0 and ZF = 0 (R80). -/
  | jnbeRel8 (p : Prefixes) (r : BitVec 8)
  /-- `JS rel8`, jump if SF = 1 (R81). -/
  | jsRel8 (p : Prefixes) (r : BitVec 8)
  /-- `JNS rel8`, jump if SF = 0 (R82). -/
  | jnsRel8 (p : Prefixes) (r : BitVec 8)
  /-- `JP rel8`, jump if PF = 1 (R83). -/
  | jpRel8 (p : Prefixes) (r : BitVec 8)
  /-- `JPE rel8`, jump if PF = 1 (R83). -/
  | jpeRel8 (p : Prefixes) (r : BitVec 8)
  /-- `JNP rel8`, jump if PF = 0 (R84). -/
  | jnpRel8 (p : Prefixes) (r : BitVec 8)
  /-- `JPO rel8`, jump if PF = 0 (R84). -/
  | jpoRel8 (p : Prefixes) (r : BitVec 8)
  /-- `JL rel8`, jump if SF ≠ OF (R85). -/
  | jlRel8 (p : Prefixes) (r : BitVec 8)
  /-- `JNGE rel8`, jump if SF ≠ OF (R85). -/
  | jngeRel8 (p : Prefixes) (r : BitVec 8)
  /-- `JGE rel8`, jump if SF = OF (R86). -/
  | jgeRel8 (p : Prefixes) (r : BitVec 8)
  /-- `JNL rel8`, jump if SF = OF (R86). -/
  | jnlRel8 (p : Prefixes) (r : BitVec 8)
  /-- `JLE rel8`, jump if ZF = 1 or SF ≠ OF (R87). -/
  | jleRel8 (p : Prefixes) (r : BitVec 8)
  /-- `JNG rel8`, jump if ZF = 1 or SF ≠ OF (R87). -/
  | jngRel8 (p : Prefixes) (r : BitVec 8)
  /-- `JG rel8`, jump if ZF = 0 and SF = OF (R88). -/
  | jgRel8 (p : Prefixes) (r : BitVec 8)
  /-- `JNLE rel8`, jump if ZF = 0 and SF = OF (R88). -/
  | jnleRel8 (p : Prefixes) (r : BitVec 8)
  -- Format C, `E3 cb` (R90 to R92).
  /-- `JCXZ rel8`, jump if CX = 0 (R90). -/
  | jcxz (p : Prefixes) (r : BitVec 8)
  /-- `JECXZ rel8`, jump if ECX = 0 (R91). -/
  | jecxz (p : Prefixes) (r : BitVec 8)
  /-- `JRCXZ rel8`, jump if RCX = 0 (R92). -/
  | jrcxz (p : Prefixes) (r : BitVec 8)
  -- Format N16, `0F 8x cw` (R94 to R109).
  /-- `JO rel16`, jump if OF = 1 (R94). -/
  | joRel16 (p : Prefixes) (r : BitVec 16)
  /-- `JNO rel16`, jump if OF = 0 (R95). -/
  | jnoRel16 (p : Prefixes) (r : BitVec 16)
  /-- `JB rel16`, jump if CF = 1 (R96). -/
  | jbRel16 (p : Prefixes) (r : BitVec 16)
  /-- `JC rel16`, jump if CF = 1 (R96). -/
  | jcRel16 (p : Prefixes) (r : BitVec 16)
  /-- `JNAE rel16`, jump if CF = 1 (R96). -/
  | jnaeRel16 (p : Prefixes) (r : BitVec 16)
  /-- `JAE rel16`, jump if CF = 0 (R97). -/
  | jaeRel16 (p : Prefixes) (r : BitVec 16)
  /-- `JNB rel16`, jump if CF = 0 (R97). -/
  | jnbRel16 (p : Prefixes) (r : BitVec 16)
  /-- `JNC rel16`, jump if CF = 0 (R97). -/
  | jncRel16 (p : Prefixes) (r : BitVec 16)
  /-- `JE rel16`, jump if ZF = 1 (R98). -/
  | jeRel16 (p : Prefixes) (r : BitVec 16)
  /-- `JZ rel16`, jump if ZF = 1 (R98). -/
  | jzRel16 (p : Prefixes) (r : BitVec 16)
  /-- `JNE rel16`, jump if ZF = 0 (R99). -/
  | jneRel16 (p : Prefixes) (r : BitVec 16)
  /-- `JNZ rel16`, jump if ZF = 0 (R99). -/
  | jnzRel16 (p : Prefixes) (r : BitVec 16)
  /-- `JBE rel16`, jump if CF = 1 or ZF = 1 (R100). -/
  | jbeRel16 (p : Prefixes) (r : BitVec 16)
  /-- `JNA rel16`, jump if CF = 1 or ZF = 1 (R100). -/
  | jnaRel16 (p : Prefixes) (r : BitVec 16)
  /-- `JA rel16`, jump if CF = 0 and ZF = 0 (R101). -/
  | jaRel16 (p : Prefixes) (r : BitVec 16)
  /-- `JNBE rel16`, jump if CF = 0 and ZF = 0 (R101). -/
  | jnbeRel16 (p : Prefixes) (r : BitVec 16)
  /-- `JS rel16`, jump if SF = 1 (R102). -/
  | jsRel16 (p : Prefixes) (r : BitVec 16)
  /-- `JNS rel16`, jump if SF = 0 (R103). -/
  | jnsRel16 (p : Prefixes) (r : BitVec 16)
  /-- `JP rel16`, jump if PF = 1 (R104). -/
  | jpRel16 (p : Prefixes) (r : BitVec 16)
  /-- `JPE rel16`, jump if PF = 1 (R104). -/
  | jpeRel16 (p : Prefixes) (r : BitVec 16)
  /-- `JNP rel16`, jump if PF = 0 (R105). -/
  | jnpRel16 (p : Prefixes) (r : BitVec 16)
  /-- `JPO rel16`, jump if PF = 0 (R105). -/
  | jpoRel16 (p : Prefixes) (r : BitVec 16)
  /-- `JL rel16`, jump if SF ≠ OF (R106). -/
  | jlRel16 (p : Prefixes) (r : BitVec 16)
  /-- `JNGE rel16`, jump if SF ≠ OF (R106). -/
  | jngeRel16 (p : Prefixes) (r : BitVec 16)
  /-- `JGE rel16`, jump if SF = OF (R107). -/
  | jgeRel16 (p : Prefixes) (r : BitVec 16)
  /-- `JNL rel16`, jump if SF = OF (R107). -/
  | jnlRel16 (p : Prefixes) (r : BitVec 16)
  /-- `JLE rel16`, jump if ZF = 1 or SF ≠ OF (R108). -/
  | jleRel16 (p : Prefixes) (r : BitVec 16)
  /-- `JNG rel16`, jump if ZF = 1 or SF ≠ OF (R108). -/
  | jngRel16 (p : Prefixes) (r : BitVec 16)
  /-- `JG rel16`, jump if ZF = 0 and SF = OF (R109). -/
  | jgRel16 (p : Prefixes) (r : BitVec 16)
  /-- `JNLE rel16`, jump if ZF = 0 and SF = OF (R109). -/
  | jnleRel16 (p : Prefixes) (r : BitVec 16)
  -- Format N32, `0F 8x cd` (R110 to R125).
  /-- `JO rel32`, jump if OF = 1 (R110). -/
  | joRel32 (p : Prefixes) (r : BitVec 32)
  /-- `JNO rel32`, jump if OF = 0 (R111). -/
  | jnoRel32 (p : Prefixes) (r : BitVec 32)
  /-- `JB rel32`, jump if CF = 1 (R112). -/
  | jbRel32 (p : Prefixes) (r : BitVec 32)
  /-- `JC rel32`, jump if CF = 1 (R112). -/
  | jcRel32 (p : Prefixes) (r : BitVec 32)
  /-- `JNAE rel32`, jump if CF = 1 (R112). -/
  | jnaeRel32 (p : Prefixes) (r : BitVec 32)
  /-- `JAE rel32`, jump if CF = 0 (R113). -/
  | jaeRel32 (p : Prefixes) (r : BitVec 32)
  /-- `JNB rel32`, jump if CF = 0 (R113). -/
  | jnbRel32 (p : Prefixes) (r : BitVec 32)
  /-- `JNC rel32`, jump if CF = 0 (R113). -/
  | jncRel32 (p : Prefixes) (r : BitVec 32)
  /-- `JE rel32`, jump if ZF = 1 (R114). -/
  | jeRel32 (p : Prefixes) (r : BitVec 32)
  /-- `JZ rel32`, jump if ZF = 1 (R114). -/
  | jzRel32 (p : Prefixes) (r : BitVec 32)
  /-- `JNE rel32`, jump if ZF = 0 (R115). -/
  | jneRel32 (p : Prefixes) (r : BitVec 32)
  /-- `JNZ rel32`, jump if ZF = 0 (R115). -/
  | jnzRel32 (p : Prefixes) (r : BitVec 32)
  /-- `JBE rel32`, jump if CF = 1 or ZF = 1 (R116). -/
  | jbeRel32 (p : Prefixes) (r : BitVec 32)
  /-- `JNA rel32`, jump if CF = 1 or ZF = 1 (R116). -/
  | jnaRel32 (p : Prefixes) (r : BitVec 32)
  /-- `JA rel32`, jump if CF = 0 and ZF = 0 (R117). -/
  | jaRel32 (p : Prefixes) (r : BitVec 32)
  /-- `JNBE rel32`, jump if CF = 0 and ZF = 0 (R117). -/
  | jnbeRel32 (p : Prefixes) (r : BitVec 32)
  /-- `JS rel32`, jump if SF = 1 (R118). -/
  | jsRel32 (p : Prefixes) (r : BitVec 32)
  /-- `JNS rel32`, jump if SF = 0 (R119). -/
  | jnsRel32 (p : Prefixes) (r : BitVec 32)
  /-- `JP rel32`, jump if PF = 1 (R120). -/
  | jpRel32 (p : Prefixes) (r : BitVec 32)
  /-- `JPE rel32`, jump if PF = 1 (R120). -/
  | jpeRel32 (p : Prefixes) (r : BitVec 32)
  /-- `JNP rel32`, jump if PF = 0 (R121). -/
  | jnpRel32 (p : Prefixes) (r : BitVec 32)
  /-- `JPO rel32`, jump if PF = 0 (R121). -/
  | jpoRel32 (p : Prefixes) (r : BitVec 32)
  /-- `JL rel32`, jump if SF ≠ OF (R122). -/
  | jlRel32 (p : Prefixes) (r : BitVec 32)
  /-- `JNGE rel32`, jump if SF ≠ OF (R122). -/
  | jngeRel32 (p : Prefixes) (r : BitVec 32)
  /-- `JGE rel32`, jump if SF = OF (R123). -/
  | jgeRel32 (p : Prefixes) (r : BitVec 32)
  /-- `JNL rel32`, jump if SF = OF (R123). -/
  | jnlRel32 (p : Prefixes) (r : BitVec 32)
  /-- `JLE rel32`, jump if ZF = 1 or SF ≠ OF (R124). -/
  | jleRel32 (p : Prefixes) (r : BitVec 32)
  /-- `JNG rel32`, jump if ZF = 1 or SF ≠ OF (R124). -/
  | jngRel32 (p : Prefixes) (r : BitVec 32)
  /-- `JG rel32`, jump if ZF = 0 and SF = OF (R125). -/
  | jgRel32 (p : Prefixes) (r : BitVec 32)
  /-- `JNLE rel32`, jump if ZF = 0 and SF = OF (R125). -/
  | jnleRel32 (p : Prefixes) (r : BitVec 32)
  deriving DecidableEq, Repr

end Sys2Proof
end

