-- ==== Sys2Proof/Machine/Flags.lean ====
section
/-! DEFINITION. The flag conditions of 40_jcc_common.md R63. The family reads the flags and writes none (R16, R70). -/

namespace Sys2Proof.Machine

/-- `Cond(Flag(cc))` (R63), on the flags at the start of the step. -/
def condHolds (cc : Cond) (s : State) : Bool :=
  match cc with
  | .o => s.OF
  | .no => !s.OF
  | .b => s.CF
  | .ae => !s.CF
  | .e => s.ZF
  | .ne => !s.ZF
  | .be => s.CF || s.ZF
  | .a => !s.CF && !s.ZF
  | .s => s.SF
  | .ns => !s.SF
  | .p => s.PF
  | .np => !s.PF
  | .l => s.SF != s.OF
  | .ge => s.SF == s.OF
  | .le => s.ZF || (s.SF != s.OF)
  | .g => !s.ZF && (s.SF == s.OF)

end Sys2Proof.Machine
end

