-- ==== Sys2Proof/Machine/Forms.lean ====
section
/-! DEFINITION. What the bytes of an instruction say beside its mnemonic: the operation each constructor spells (the
kind, form and offset of the decoded record of 30_encoding.md R59), its leading bytes, its length (R55), the effective
operand-size and address-size attributes (R51, R52), and which forms exist in which mode (R53, R54, R59). -/

namespace Sys2Proof.Machine

/-- The kind, form and offset of a decoded instruction (R59). That the kind is `Count` exactly when the form is `C`,
and the width of the offset in each form, hold by the type. -/
inductive Op where
  | short (cc : Cond) (rel : BitVec 8)    -- format S
  | count (size : Size) (rel : BitVec 8)  -- format C, with the address size that selects the register
  | near16 (cc : Cond) (rel : BitVec 16)  -- format N16
  | near32 (cc : Cond) (rel : BitVec 32)  -- format N32
  deriving DecidableEq, Repr

/-- The operation each row of the opcode table spells (R57, R61, R89). -/
def opOf (i : Instr) : Op :=
  match i with
  | .joRel8 _ r => .short .o r
  | .jnoRel8 _ r => .short .no r
  | .jbRel8 _ r => .short .b r
  | .jcRel8 _ r => .short .b r
  | .jnaeRel8 _ r => .short .b r
  | .jaeRel8 _ r => .short .ae r
  | .jnbRel8 _ r => .short .ae r
  | .jncRel8 _ r => .short .ae r
  | .jeRel8 _ r => .short .e r
  | .jzRel8 _ r => .short .e r
  | .jneRel8 _ r => .short .ne r
  | .jnzRel8 _ r => .short .ne r
  | .jbeRel8 _ r => .short .be r
  | .jnaRel8 _ r => .short .be r
  | .jaRel8 _ r => .short .a r
  | .jnbeRel8 _ r => .short .a r
  | .jsRel8 _ r => .short .s r
  | .jnsRel8 _ r => .short .ns r
  | .jpRel8 _ r => .short .p r
  | .jpeRel8 _ r => .short .p r
  | .jnpRel8 _ r => .short .np r
  | .jpoRel8 _ r => .short .np r
  | .jlRel8 _ r => .short .l r
  | .jngeRel8 _ r => .short .l r
  | .jgeRel8 _ r => .short .ge r
  | .jnlRel8 _ r => .short .ge r
  | .jleRel8 _ r => .short .le r
  | .jngRel8 _ r => .short .le r
  | .jgRel8 _ r => .short .g r
  | .jnleRel8 _ r => .short .g r
  | .jcxz _ r => .count .bits16 r
  | .jecxz _ r => .count .bits32 r
  | .jrcxz _ r => .count .bits64 r
  | .joRel16 _ r => .near16 .o r
  | .jnoRel16 _ r => .near16 .no r
  | .jbRel16 _ r => .near16 .b r
  | .jcRel16 _ r => .near16 .b r
  | .jnaeRel16 _ r => .near16 .b r
  | .jaeRel16 _ r => .near16 .ae r
  | .jnbRel16 _ r => .near16 .ae r
  | .jncRel16 _ r => .near16 .ae r
  | .jeRel16 _ r => .near16 .e r
  | .jzRel16 _ r => .near16 .e r
  | .jneRel16 _ r => .near16 .ne r
  | .jnzRel16 _ r => .near16 .ne r
  | .jbeRel16 _ r => .near16 .be r
  | .jnaRel16 _ r => .near16 .be r
  | .jaRel16 _ r => .near16 .a r
  | .jnbeRel16 _ r => .near16 .a r
  | .jsRel16 _ r => .near16 .s r
  | .jnsRel16 _ r => .near16 .ns r
  | .jpRel16 _ r => .near16 .p r
  | .jpeRel16 _ r => .near16 .p r
  | .jnpRel16 _ r => .near16 .np r
  | .jpoRel16 _ r => .near16 .np r
  | .jlRel16 _ r => .near16 .l r
  | .jngeRel16 _ r => .near16 .l r
  | .jgeRel16 _ r => .near16 .ge r
  | .jnlRel16 _ r => .near16 .ge r
  | .jleRel16 _ r => .near16 .le r
  | .jngRel16 _ r => .near16 .le r
  | .jgRel16 _ r => .near16 .g r
  | .jnleRel16 _ r => .near16 .g r
  | .joRel32 _ r => .near32 .o r
  | .jnoRel32 _ r => .near32 .no r
  | .jbRel32 _ r => .near32 .b r
  | .jcRel32 _ r => .near32 .b r
  | .jnaeRel32 _ r => .near32 .b r
  | .jaeRel32 _ r => .near32 .ae r
  | .jnbRel32 _ r => .near32 .ae r
  | .jncRel32 _ r => .near32 .ae r
  | .jeRel32 _ r => .near32 .e r
  | .jzRel32 _ r => .near32 .e r
  | .jneRel32 _ r => .near32 .ne r
  | .jnzRel32 _ r => .near32 .ne r
  | .jbeRel32 _ r => .near32 .be r
  | .jnaRel32 _ r => .near32 .be r
  | .jaRel32 _ r => .near32 .a r
  | .jnbeRel32 _ r => .near32 .a r
  | .jsRel32 _ r => .near32 .s r
  | .jnsRel32 _ r => .near32 .ns r
  | .jpRel32 _ r => .near32 .p r
  | .jpeRel32 _ r => .near32 .p r
  | .jnpRel32 _ r => .near32 .np r
  | .jpoRel32 _ r => .near32 .np r
  | .jlRel32 _ r => .near32 .l r
  | .jngeRel32 _ r => .near32 .l r
  | .jgeRel32 _ r => .near32 .ge r
  | .jnlRel32 _ r => .near32 .ge r
  | .jleRel32 _ r => .near32 .le r
  | .jngRel32 _ r => .near32 .le r
  | .jgRel32 _ r => .near32 .g r
  | .jnleRel32 _ r => .near32 .g r

/-- The leading bytes of an instruction. -/
def prefixesOf (i : Instr) : Prefixes :=
  match i with
  | .joRel8 p _ => p
  | .jnoRel8 p _ => p
  | .jbRel8 p _ => p
  | .jcRel8 p _ => p
  | .jnaeRel8 p _ => p
  | .jaeRel8 p _ => p
  | .jnbRel8 p _ => p
  | .jncRel8 p _ => p
  | .jeRel8 p _ => p
  | .jzRel8 p _ => p
  | .jneRel8 p _ => p
  | .jnzRel8 p _ => p
  | .jbeRel8 p _ => p
  | .jnaRel8 p _ => p
  | .jaRel8 p _ => p
  | .jnbeRel8 p _ => p
  | .jsRel8 p _ => p
  | .jnsRel8 p _ => p
  | .jpRel8 p _ => p
  | .jpeRel8 p _ => p
  | .jnpRel8 p _ => p
  | .jpoRel8 p _ => p
  | .jlRel8 p _ => p
  | .jngeRel8 p _ => p
  | .jgeRel8 p _ => p
  | .jnlRel8 p _ => p
  | .jleRel8 p _ => p
  | .jngRel8 p _ => p
  | .jgRel8 p _ => p
  | .jnleRel8 p _ => p
  | .jcxz p _ => p
  | .jecxz p _ => p
  | .jrcxz p _ => p
  | .joRel16 p _ => p
  | .jnoRel16 p _ => p
  | .jbRel16 p _ => p
  | .jcRel16 p _ => p
  | .jnaeRel16 p _ => p
  | .jaeRel16 p _ => p
  | .jnbRel16 p _ => p
  | .jncRel16 p _ => p
  | .jeRel16 p _ => p
  | .jzRel16 p _ => p
  | .jneRel16 p _ => p
  | .jnzRel16 p _ => p
  | .jbeRel16 p _ => p
  | .jnaRel16 p _ => p
  | .jaRel16 p _ => p
  | .jnbeRel16 p _ => p
  | .jsRel16 p _ => p
  | .jnsRel16 p _ => p
  | .jpRel16 p _ => p
  | .jpeRel16 p _ => p
  | .jnpRel16 p _ => p
  | .jpoRel16 p _ => p
  | .jlRel16 p _ => p
  | .jngeRel16 p _ => p
  | .jgeRel16 p _ => p
  | .jnlRel16 p _ => p
  | .jleRel16 p _ => p
  | .jngRel16 p _ => p
  | .jgRel16 p _ => p
  | .jnleRel16 p _ => p
  | .joRel32 p _ => p
  | .jnoRel32 p _ => p
  | .jbRel32 p _ => p
  | .jcRel32 p _ => p
  | .jnaeRel32 p _ => p
  | .jaeRel32 p _ => p
  | .jnbRel32 p _ => p
  | .jncRel32 p _ => p
  | .jeRel32 p _ => p
  | .jzRel32 p _ => p
  | .jneRel32 p _ => p
  | .jnzRel32 p _ => p
  | .jbeRel32 p _ => p
  | .jnaRel32 p _ => p
  | .jaRel32 p _ => p
  | .jnbeRel32 p _ => p
  | .jsRel32 p _ => p
  | .jnsRel32 p _ => p
  | .jpRel32 p _ => p
  | .jpeRel32 p _ => p
  | .jnpRel32 p _ => p
  | .jpoRel32 p _ => p
  | .jlRel32 p _ => p
  | .jngeRel32 p _ => p
  | .jgeRel32 p _ => p
  | .jnlRel32 p _ => p
  | .jleRel32 p _ => p
  | .jngRel32 p _ => p
  | .jgRel32 p _ => p
  | .jnleRel32 p _ => p

/-- How many opcode and offset bytes a form has (R43, R55). -/
def Op.size (op : Op) : Nat :=
  match op with
  | .short _ _ => 2
  | .count _ _ => 2
  | .near16 _ _ => 4
  | .near32 _ _ => 6

/-- The length in bytes of an operation behind leading bytes `p` (R55). -/
def lengthOf (p : Prefixes) (op : Op) : Nat := p.length + op.size

/-- A default size as an effective size. -/
def sameSize (d : DefaultSize) : Size :=
  match d with
  | .bits16 => .bits16
  | .bits32 => .bits32

/-- A default size toggled by an override (R51, R52: "16 if DEF = 32 else 32"). -/
def toggledSize (d : DefaultSize) : Size :=
  match d with
  | .bits16 => .bits32
  | .bits32 => .bits16

/-- The effective operand-size attribute (R51): fixed at 64 in 64-bit mode, with or without 66H. -/
def operandSize (c : Config) (p : Prefixes) : Size :=
  if c.mode = .long64 then .bits64
  else if Prefix.opSize ∈ p then toggledSize c.defOpSize else sameSize c.defOpSize

/-- The effective address-size attribute (R52). -/
def addressSize (c : Config) (p : Prefixes) : Size :=
  if c.mode = .long64 then (if Prefix.addrSize ∈ p then .bits32 else .bits64)
  else if Prefix.addrSize ∈ p then toggledSize c.defAddrSize else sameSize c.defAddrSize

/-- Whether the form exists under this configuration behind these leading bytes (R53, R54, R59): the short forms in
every mode; a count-register form where the address size is the one its mnemonic names; `cw` outside 64-bit mode with
operand size 16; `cd` with operand size 32, and in 64-bit mode without 66H. -/
def formExists (c : Config) (p : Prefixes) (op : Op) : Bool :=
  match op with
  | .short _ _ => true
  | .count size _ => decide (addressSize c p = size)
  | .near16 _ _ => decide (operandSize c p = .bits16)
  | .near32 _ _ =>
    decide (operandSize c p = .bits32) || (decide (c.mode = .long64) && decide (Prefix.opSize ∉ p))

/-- Whether some byte string spells the operation behind these leading bytes: no leading byte twice (R50) and the form
exists (R53, R54). -/
def encodable (c : Config) (p : Prefixes) (op : Op) : Bool := decide p.Nodup && formExists c p op

end Sys2Proof.Machine
end

