-- ==== Sys2Proof/Machine/Ops.lean ====
section
/-! DEFINITION. The named operations over registers and the code image: the views of `ip` and of the count register
(R13, R17), the one write any rule makes (R7), offset arithmetic (R15, R72), the code image (R28), canonical form (R36),
and the raising of an exception (R131). There is no return from an exception: the spec gives none (R135). -/

namespace Sys2Proof.Machine

/-! ### Registers -/

/-- RIP, the instruction pointer of 64-bit mode (R13). -/
def rip (s : State) : BitVec 64 := s.ip

/-- EIP, the instruction pointer of every other mode (R13). -/
def eip (s : State) : BitVec 32 := s.ip.extractLsb' 0 32

/-- IP16, the part of EIP that operand size 16 leaves (R13). -/
def ip16 (s : State) : BitVec 16 := s.ip.extractLsb' 0 16

/-- ECX, the low half of the count register (R17). -/
def ecx (s : State) : BitVec 32 := s.RCX.extractLsb' 0 32

/-- CX, the low 16 bits of the count register (R17). -/
def cx (s : State) : BitVec 16 := s.RCX.extractLsb' 0 16

/-- `ip <- target`, the only state write any rule makes (R7, R70). -/
def State.withIp (s : State) (target : Offset) : State := { s with ip := target }

/-! ### Offset arithmetic -/

/-- `a +_W d`, on 64 bits in 64-bit mode and on 32 bits elsewhere, where the upper half of the result is zero
(R15, R65). -/
def addOffset (c : Config) (a d : Offset) : Offset :=
  if c.mode = .long64 then a + d else (a.setWidth 32 + d.setWidth 32).setWidth 64

/-- `Canonical(t)`: bits 63 down to `VA_BITS-1` of `t` are all equal (R36). -/
def canonical (vaBits : Nat) (t : Offset) : Bool :=
  decide (t.sshiftRight (vaBits - 1) = 0#64) || decide (t.sshiftRight (vaBits - 1) = BitVec.allOnes 64)

/-! ### The code image -/

/-- `CODE(off)` (R28, R32): the byte, or no value where `CODE` is undefined. -/
def Memory.read (m : Memory) (a : Nat) : Option Byte :=
  match m with
  | [] => none
  | (k, b) :: rest => if k = a then some b else Memory.read rest a

/-- Defines the image at `a` as `b`, keeping the offsets strictly rising. No instruction calls it (R33): it is how a
host lays a program into an image before a run (R138, R139). -/
def Memory.write (m : Memory) (a : Nat) (b : Byte) : Memory :=
  match m with
  | [] => [(a, b)]
  | (k, v) :: rest =>
    if a < k then (a, b) :: (k, v) :: rest
    else if a = k then (a, b) :: rest
    else (k, v) :: Memory.write rest a b

/-- Lays bytes at `off`, `off +_W 1`, … of an image. -/
def writeBytes (c : Config) (m : Memory) (off : Offset) (bs : List Byte) : Memory :=
  match bs with
  | [] => m
  | b :: rest => writeBytes c (m.write off.toNat b) (addOffset c off 1#64) rest

/-! ### Exceptions -/

/-- The exception causes of the family (R126, R131). -/
inductive ExcVector where
  | gp  -- general protection
  | ud  -- invalid opcode
  deriving DecidableEq, Repr

/-- The vector numbers R126 gives as general knowledge; no rule uses them. -/
def ExcVector.number (v : ExcVector) : Nat :=
  match v with
  | .gp => 13
  | .ud => 6

/-- The `vector` of a fault outcome (R131). -/
def Fault.vector (f : Fault) : ExcVector :=
  match f with
  | .gp0 _ => .gp
  | .gp _ => .gp
  | .ud _ => .ud

/-- The `error_code` of a fault outcome: 0 for `#GP(0)`, none for `#GP` and `#UD` (R131). -/
def Fault.errorCode (f : Fault) : Option Nat :=
  match f with
  | .gp0 _ => some 0
  | .gp _ => none
  | .ud _ => none

/-- The `at` of a fault outcome (R131). -/
def Fault.offset (f : Fault) : Offset :=
  match f with
  | .gp0 off => off
  | .gp off => off
  | .ud off => off

/-- The fault an exception cause makes in a mode, at the instruction at `a`: the per-mode sections decide whether a
general-protection exception carries the error code 0 (R126 to R130; 90_conflicts.md C5). -/
def faultFor (v : ExcVector) (m : Mode) (a : Offset) : Fault :=
  match v, m with
  | .ud, _ => .ud a
  | .gp, .real => .gp a
  | .gp, .v8086 => .gp a
  | .gp, .protectedMode => .gp0 a
  | .gp, .compat => .gp0 a
  | .gp, .long64 => .gp0 a

/-- Raising an exception at the instruction `ip` stands at (R131): the step ends in the fault outcome, the state is the
one before the step, and nothing is delivered. It is the one operation every exception of the model goes through. -/
def raise {α : Type} (v : ExcVector) (s : State) : Host.Outcome α Fault Refusal :=
  .fault (faultFor v s.config.mode s.ip)

end Sys2Proof.Machine
end

