-- ==== Sys2Proof/Machine/Operands.lean ====
section
/-! DEFINITION. The operands of an instruction: the offset at the width of the instruction pointer (30_encoding.md R49),
the count register at the width of the address size (40_jcc_common.md R64), the condition, the target of a taken jump
(R67, R68) and the checks on it (R69). -/

namespace Sys2Proof.Machine

/-- `Cond(Count)`: the count register is zero at the width of the address size (R64). -/
def countIsZero (size : Size) (s : State) : Bool :=
  match size with
  | .bits16 => decide (cx s = 0#16)
  | .bits32 => decide (ecx s = 0#32)
  | .bits64 => decide (s.RCX = 0#64)

/-- Whether the jump is taken (R63, R64). -/
def taken (op : Op) (s : State) : Bool :=
  match op with
  | .short cc _ => condHolds cc s
  | .count size _ => countIsZero size s
  | .near16 cc _ => condHolds cc s
  | .near32 cc _ => condHolds cc s

/-- The offset operand sign-extended to `w` bits (R49: 32 outside 64-bit mode, 64 in it). -/
def relOf (w : Nat) (op : Op) : BitVec w :=
  match op with
  | .short _ r => r.signExtend w
  | .count _ r => r.signExtend w
  | .near16 _ r => r.signExtend w
  | .near32 _ r => r.signExtend w

/-- The target of a taken jump, from the offset of the following instruction (R67, R68): the sum on 32 bits, cut to 16
bits under operand size 16; in 64-bit mode the sum on 64 bits. -/
def targetFrom (c : Config) (p : Prefixes) (op : Op) (next : Offset) : Offset :=
  if c.mode = .long64 then next + relOf 64 op
  else
    let t : BitVec 32 := next.setWidth 32 + relOf 32 op
    (if operandSize c p = .bits16 then t &&& 0x0000FFFF#32 else t).setWidth 64

/-- The checks on the target of a taken jump (R34 to R36, R69). -/
def targetAllowed (c : Config) (t : Offset) : Bool :=
  match c.mode with
  | .protectedMode => decide (t.setWidth 32 ≤ c.csLimit)
  | .compat => decide (t.setWidth 32 ≤ c.csLimit)
  | .real => decide (t.setWidth 32 ≤ c.csLimit) && decide (t.setWidth 32 ≤ 0x0000FFFF#32)
  | .v8086 => decide (t.setWidth 32 ≤ c.csLimit) && decide (t.setWidth 32 ≤ 0x0000FFFF#32)
  | .long64 => canonical c.vaBits t

end Sys2Proof.Machine
end

