-- ==== Sys2Proof/Machine/Jcc.lean ====
section
/-! DEFINITION. The step every instruction of the family shares (40_jcc_common.md R65), from the decoded instruction
on: the LOCK test, the condition, the target, the checks, the write of `ip`. -/

namespace Sys2Proof.Machine

/-- The offset of the following instruction, `next = a +_W len` (R14, R65). -/
def nextOf (p : Prefixes) (op : Op) (s : State) : Offset :=
  addOffset s.config s.ip (BitVec.ofNat 64 (lengthOf p op))

/-- The taken path (R67 to R69): the target is checked after the cut to 16 bits, and `ip` is written only when the check
passes. -/
def jumpTaken (p : Prefixes) (op : Op) (s : State) : Host.Outcome State Fault Refusal :=
  let t := targetFrom s.config p op (nextOf p op s)
  if targetAllowed s.config t then .next (s.withIp t) else raise .gp s

/-- The step of R65 behind the exit test and the decoder, in the order of R71: `#UD` for LOCK before the condition, the
condition before the target. An operation no byte string spells (R54, R58) is refused by name. -/
def execOp (op : Op) (p : Prefixes) (s : State) : Host.Outcome State Fault Refusal :=
  if !encodable s.config p op then .refused .notEncodable
  else if Prefix.lock ∈ p then raise .ud s
  else if taken op s then jumpTaken p op s
  else .next (s.withIp (nextOf p op s))

end Sys2Proof.Machine
end

