-- ==== Sys2Proof/Machine/Count.lean ====
section
/-! DEFINITION. The meanings of the three count-register jumps, `E3 cb` (42_jcxz.md R89 to R92): one definition per row of
the opcode table, each the shared step of 40_jcc_common.md R65 at the row's condition and form. -/

namespace Sys2Proof.Machine

/-- `JCXZ rel8` (R90): jump if CX = 0. -/
def execJcxz (p : Prefixes) (r : BitVec 8) (s : State) : Host.Outcome State Fault Refusal :=
  execOp (.count .bits16 r) p s

/-- `JECXZ rel8` (R91): jump if ECX = 0. -/
def execJecxz (p : Prefixes) (r : BitVec 8) (s : State) : Host.Outcome State Fault Refusal :=
  execOp (.count .bits32 r) p s

/-- `JRCXZ rel8` (R92): jump if RCX = 0. -/
def execJrcxz (p : Prefixes) (r : BitVec 8) (s : State) : Host.Outcome State Fault Refusal :=
  execOp (.count .bits64 r) p s

end Sys2Proof.Machine
end

