-- ==== Sys2Proof/Machine/Near16.lean ====
section
/-! DEFINITION. The meanings of the 30 near flag-conditional jumps with a 16-bit offset, `0F 8x cw` (43_jcc_near.md R93 to R109): one definition per row of
the opcode table, each the shared step of 40_jcc_common.md R65 at the row's condition and form. -/

namespace Sys2Proof.Machine

/-- `JO rel16` (R94): jump if OF = 1. -/
def execJoRel16 (p : Prefixes) (r : BitVec 16) (s : State) : Host.Outcome State Fault Refusal :=
  execOp (.near16 .o r) p s

/-- `JNO rel16` (R95): jump if OF = 0. -/
def execJnoRel16 (p : Prefixes) (r : BitVec 16) (s : State) : Host.Outcome State Fault Refusal :=
  execOp (.near16 .no r) p s

/-- `JB rel16` (R96): jump if CF = 1. -/
def execJbRel16 (p : Prefixes) (r : BitVec 16) (s : State) : Host.Outcome State Fault Refusal :=
  execOp (.near16 .b r) p s

/-- `JC rel16` (R96): jump if CF = 1. -/
def execJcRel16 (p : Prefixes) (r : BitVec 16) (s : State) : Host.Outcome State Fault Refusal :=
  execOp (.near16 .b r) p s

/-- `JNAE rel16` (R96): jump if CF = 1. -/
def execJnaeRel16 (p : Prefixes) (r : BitVec 16) (s : State) : Host.Outcome State Fault Refusal :=
  execOp (.near16 .b r) p s

/-- `JAE rel16` (R97): jump if CF = 0. -/
def execJaeRel16 (p : Prefixes) (r : BitVec 16) (s : State) : Host.Outcome State Fault Refusal :=
  execOp (.near16 .ae r) p s

/-- `JNB rel16` (R97): jump if CF = 0. -/
def execJnbRel16 (p : Prefixes) (r : BitVec 16) (s : State) : Host.Outcome State Fault Refusal :=
  execOp (.near16 .ae r) p s

/-- `JNC rel16` (R97): jump if CF = 0. -/
def execJncRel16 (p : Prefixes) (r : BitVec 16) (s : State) : Host.Outcome State Fault Refusal :=
  execOp (.near16 .ae r) p s

/-- `JE rel16` (R98): jump if ZF = 1. -/
def execJeRel16 (p : Prefixes) (r : BitVec 16) (s : State) : Host.Outcome State Fault Refusal :=
  execOp (.near16 .e r) p s

/-- `JZ rel16` (R98): jump if ZF = 1. -/
def execJzRel16 (p : Prefixes) (r : BitVec 16) (s : State) : Host.Outcome State Fault Refusal :=
  execOp (.near16 .e r) p s

/-- `JNE rel16` (R99): jump if ZF = 0. -/
def execJneRel16 (p : Prefixes) (r : BitVec 16) (s : State) : Host.Outcome State Fault Refusal :=
  execOp (.near16 .ne r) p s

/-- `JNZ rel16` (R99): jump if ZF = 0. -/
def execJnzRel16 (p : Prefixes) (r : BitVec 16) (s : State) : Host.Outcome State Fault Refusal :=
  execOp (.near16 .ne r) p s

/-- `JBE rel16` (R100): jump if CF = 1 or ZF = 1. -/
def execJbeRel16 (p : Prefixes) (r : BitVec 16) (s : State) : Host.Outcome State Fault Refusal :=
  execOp (.near16 .be r) p s

/-- `JNA rel16` (R100): jump if CF = 1 or ZF = 1. -/
def execJnaRel16 (p : Prefixes) (r : BitVec 16) (s : State) : Host.Outcome State Fault Refusal :=
  execOp (.near16 .be r) p s

/-- `JA rel16` (R101): jump if CF = 0 and ZF = 0. -/
def execJaRel16 (p : Prefixes) (r : BitVec 16) (s : State) : Host.Outcome State Fault Refusal :=
  execOp (.near16 .a r) p s

/-- `JNBE rel16` (R101): jump if CF = 0 and ZF = 0. -/
def execJnbeRel16 (p : Prefixes) (r : BitVec 16) (s : State) : Host.Outcome State Fault Refusal :=
  execOp (.near16 .a r) p s

/-- `JS rel16` (R102): jump if SF = 1. -/
def execJsRel16 (p : Prefixes) (r : BitVec 16) (s : State) : Host.Outcome State Fault Refusal :=
  execOp (.near16 .s r) p s

/-- `JNS rel16` (R103): jump if SF = 0. -/
def execJnsRel16 (p : Prefixes) (r : BitVec 16) (s : State) : Host.Outcome State Fault Refusal :=
  execOp (.near16 .ns r) p s

/-- `JP rel16` (R104): jump if PF = 1. -/
def execJpRel16 (p : Prefixes) (r : BitVec 16) (s : State) : Host.Outcome State Fault Refusal :=
  execOp (.near16 .p r) p s

/-- `JPE rel16` (R104): jump if PF = 1. -/
def execJpeRel16 (p : Prefixes) (r : BitVec 16) (s : State) : Host.Outcome State Fault Refusal :=
  execOp (.near16 .p r) p s

/-- `JNP rel16` (R105): jump if PF = 0. -/
def execJnpRel16 (p : Prefixes) (r : BitVec 16) (s : State) : Host.Outcome State Fault Refusal :=
  execOp (.near16 .np r) p s

/-- `JPO rel16` (R105): jump if PF = 0. -/
def execJpoRel16 (p : Prefixes) (r : BitVec 16) (s : State) : Host.Outcome State Fault Refusal :=
  execOp (.near16 .np r) p s

/-- `JL rel16` (R106): jump if SF ≠ OF. -/
def execJlRel16 (p : Prefixes) (r : BitVec 16) (s : State) : Host.Outcome State Fault Refusal :=
  execOp (.near16 .l r) p s

/-- `JNGE rel16` (R106): jump if SF ≠ OF. -/
def execJngeRel16 (p : Prefixes) (r : BitVec 16) (s : State) : Host.Outcome State Fault Refusal :=
  execOp (.near16 .l r) p s

/-- `JGE rel16` (R107): jump if SF = OF. -/
def execJgeRel16 (p : Prefixes) (r : BitVec 16) (s : State) : Host.Outcome State Fault Refusal :=
  execOp (.near16 .ge r) p s

/-- `JNL rel16` (R107): jump if SF = OF. -/
def execJnlRel16 (p : Prefixes) (r : BitVec 16) (s : State) : Host.Outcome State Fault Refusal :=
  execOp (.near16 .ge r) p s

/-- `JLE rel16` (R108): jump if ZF = 1 or SF ≠ OF. -/
def execJleRel16 (p : Prefixes) (r : BitVec 16) (s : State) : Host.Outcome State Fault Refusal :=
  execOp (.near16 .le r) p s

/-- `JNG rel16` (R108): jump if ZF = 1 or SF ≠ OF. -/
def execJngRel16 (p : Prefixes) (r : BitVec 16) (s : State) : Host.Outcome State Fault Refusal :=
  execOp (.near16 .le r) p s

/-- `JG rel16` (R109): jump if ZF = 0 and SF = OF. -/
def execJgRel16 (p : Prefixes) (r : BitVec 16) (s : State) : Host.Outcome State Fault Refusal :=
  execOp (.near16 .g r) p s

/-- `JNLE rel16` (R109): jump if ZF = 0 and SF = OF. -/
def execJnleRel16 (p : Prefixes) (r : BitVec 16) (s : State) : Host.Outcome State Fault Refusal :=
  execOp (.near16 .g r) p s

end Sys2Proof.Machine
end

