-- ==== Sys2Proof/Machine/Near32.lean ====
section
/-! DEFINITION. The meanings of the 30 near flag-conditional jumps with a 32-bit offset, `0F 8x cd` (43_jcc_near.md R93, R110 to R125): one definition per row of
the opcode table, each the shared step of 40_jcc_common.md R65 at the row's condition and form. -/

namespace Sys2Proof.Machine

/-- `JO rel32` (R110): jump if OF = 1. -/
def execJoRel32 (p : Prefixes) (r : BitVec 32) (s : State) : Host.Outcome State Fault Refusal :=
  execOp (.near32 .o r) p s

/-- `JNO rel32` (R111): jump if OF = 0. -/
def execJnoRel32 (p : Prefixes) (r : BitVec 32) (s : State) : Host.Outcome State Fault Refusal :=
  execOp (.near32 .no r) p s

/-- `JB rel32` (R112): jump if CF = 1. -/
def execJbRel32 (p : Prefixes) (r : BitVec 32) (s : State) : Host.Outcome State Fault Refusal :=
  execOp (.near32 .b r) p s

/-- `JC rel32` (R112): jump if CF = 1. -/
def execJcRel32 (p : Prefixes) (r : BitVec 32) (s : State) : Host.Outcome State Fault Refusal :=
  execOp (.near32 .b r) p s

/-- `JNAE rel32` (R112): jump if CF = 1. -/
def execJnaeRel32 (p : Prefixes) (r : BitVec 32) (s : State) : Host.Outcome State Fault Refusal :=
  execOp (.near32 .b r) p s

/-- `JAE rel32` (R113): jump if CF = 0. -/
def execJaeRel32 (p : Prefixes) (r : BitVec 32) (s : State) : Host.Outcome State Fault Refusal :=
  execOp (.near32 .ae r) p s

/-- `JNB rel32` (R113): jump if CF = 0. -/
def execJnbRel32 (p : Prefixes) (r : BitVec 32) (s : State) : Host.Outcome State Fault Refusal :=
  execOp (.near32 .ae r) p s

/-- `JNC rel32` (R113): jump if CF = 0. -/
def execJncRel32 (p : Prefixes) (r : BitVec 32) (s : State) : Host.Outcome State Fault Refusal :=
  execOp (.near32 .ae r) p s

/-- `JE rel32` (R114): jump if ZF = 1. -/
def execJeRel32 (p : Prefixes) (r : BitVec 32) (s : State) : Host.Outcome State Fault Refusal :=
  execOp (.near32 .e r) p s

/-- `JZ rel32` (R114): jump if ZF = 1. -/
def execJzRel32 (p : Prefixes) (r : BitVec 32) (s : State) : Host.Outcome State Fault Refusal :=
  execOp (.near32 .e r) p s

/-- `JNE rel32` (R115): jump if ZF = 0. -/
def execJneRel32 (p : Prefixes) (r : BitVec 32) (s : State) : Host.Outcome State Fault Refusal :=
  execOp (.near32 .ne r) p s

/-- `JNZ rel32` (R115): jump if ZF = 0. -/
def execJnzRel32 (p : Prefixes) (r : BitVec 32) (s : State) : Host.Outcome State Fault Refusal :=
  execOp (.near32 .ne r) p s

/-- `JBE rel32` (R116): jump if CF = 1 or ZF = 1. -/
def execJbeRel32 (p : Prefixes) (r : BitVec 32) (s : State) : Host.Outcome State Fault Refusal :=
  execOp (.near32 .be r) p s

/-- `JNA rel32` (R116): jump if CF = 1 or ZF = 1. -/
def execJnaRel32 (p : Prefixes) (r : BitVec 32) (s : State) : Host.Outcome State Fault Refusal :=
  execOp (.near32 .be r) p s

/-- `JA rel32` (R117): jump if CF = 0 and ZF = 0. -/
def execJaRel32 (p : Prefixes) (r : BitVec 32) (s : State) : Host.Outcome State Fault Refusal :=
  execOp (.near32 .a r) p s

/-- `JNBE rel32` (R117): jump if CF = 0 and ZF = 0. -/
def execJnbeRel32 (p : Prefixes) (r : BitVec 32) (s : State) : Host.Outcome State Fault Refusal :=
  execOp (.near32 .a r) p s

/-- `JS rel32` (R118): jump if SF = 1. -/
def execJsRel32 (p : Prefixes) (r : BitVec 32) (s : State) : Host.Outcome State Fault Refusal :=
  execOp (.near32 .s r) p s

/-- `JNS rel32` (R119): jump if SF = 0. -/
def execJnsRel32 (p : Prefixes) (r : BitVec 32) (s : State) : Host.Outcome State Fault Refusal :=
  execOp (.near32 .ns r) p s

/-- `JP rel32` (R120): jump if PF = 1. -/
def execJpRel32 (p : Prefixes) (r : BitVec 32) (s : State) : Host.Outcome State Fault Refusal :=
  execOp (.near32 .p r) p s

/-- `JPE rel32` (R120): jump if PF = 1. -/
def execJpeRel32 (p : Prefixes) (r : BitVec 32) (s : State) : Host.Outcome State Fault Refusal :=
  execOp (.near32 .p r) p s

/-- `JNP rel32` (R121): jump if PF = 0. -/
def execJnpRel32 (p : Prefixes) (r : BitVec 32) (s : State) : Host.Outcome State Fault Refusal :=
  execOp (.near32 .np r) p s

/-- `JPO rel32` (R121): jump if PF = 0. -/
def execJpoRel32 (p : Prefixes) (r : BitVec 32) (s : State) : Host.Outcome State Fault Refusal :=
  execOp (.near32 .np r) p s

/-- `JL rel32` (R122): jump if SF ≠ OF. -/
def execJlRel32 (p : Prefixes) (r : BitVec 32) (s : State) : Host.Outcome State Fault Refusal :=
  execOp (.near32 .l r) p s

/-- `JNGE rel32` (R122): jump if SF ≠ OF. -/
def execJngeRel32 (p : Prefixes) (r : BitVec 32) (s : State) : Host.Outcome State Fault Refusal :=
  execOp (.near32 .l r) p s

/-- `JGE rel32` (R123): jump if SF = OF. -/
def execJgeRel32 (p : Prefixes) (r : BitVec 32) (s : State) : Host.Outcome State Fault Refusal :=
  execOp (.near32 .ge r) p s

/-- `JNL rel32` (R123): jump if SF = OF. -/
def execJnlRel32 (p : Prefixes) (r : BitVec 32) (s : State) : Host.Outcome State Fault Refusal :=
  execOp (.near32 .ge r) p s

/-- `JLE rel32` (R124): jump if ZF = 1 or SF ≠ OF. -/
def execJleRel32 (p : Prefixes) (r : BitVec 32) (s : State) : Host.Outcome State Fault Refusal :=
  execOp (.near32 .le r) p s

/-- `JNG rel32` (R124): jump if ZF = 1 or SF ≠ OF. -/
def execJngRel32 (p : Prefixes) (r : BitVec 32) (s : State) : Host.Outcome State Fault Refusal :=
  execOp (.near32 .le r) p s

/-- `JG rel32` (R125): jump if ZF = 0 and SF = OF. -/
def execJgRel32 (p : Prefixes) (r : BitVec 32) (s : State) : Host.Outcome State Fault Refusal :=
  execOp (.near32 .g r) p s

/-- `JNLE rel32` (R125): jump if ZF = 0 and SF = OF. -/
def execJnleRel32 (p : Prefixes) (r : BitVec 32) (s : State) : Host.Outcome State Fault Refusal :=
  execOp (.near32 .g r) p s

end Sys2Proof.Machine
end

