-- ==== Sys2Proof/Machine/Short.lean ====
section
/-! DEFINITION. The meanings of the 30 short flag-conditional jumps, `7x cb` (41_jcc_rel8.md R73 to R88): one definition per row of
the opcode table, each the shared step of 40_jcc_common.md R65 at the row's condition and form. -/

namespace Sys2Proof.Machine

/-- `JO rel8` (R73): jump if OF = 1. -/
def execJoRel8 (p : Prefixes) (r : BitVec 8) (s : State) : Host.Outcome State Fault Refusal :=
  execOp (.short .o r) p s

/-- `JNO rel8` (R74): jump if OF = 0. -/
def execJnoRel8 (p : Prefixes) (r : BitVec 8) (s : State) : Host.Outcome State Fault Refusal :=
  execOp (.short .no r) p s

/-- `JB rel8` (R75): jump if CF = 1. -/
def execJbRel8 (p : Prefixes) (r : BitVec 8) (s : State) : Host.Outcome State Fault Refusal :=
  execOp (.short .b r) p s

/-- `JC rel8` (R75): jump if CF = 1. -/
def execJcRel8 (p : Prefixes) (r : BitVec 8) (s : State) : Host.Outcome State Fault Refusal :=
  execOp (.short .b r) p s

/-- `JNAE rel8` (R75): jump if CF = 1. -/
def execJnaeRel8 (p : Prefixes) (r : BitVec 8) (s : State) : Host.Outcome State Fault Refusal :=
  execOp (.short .b r) p s

/-- `JAE rel8` (R76): jump if CF = 0. -/
def execJaeRel8 (p : Prefixes) (r : BitVec 8) (s : State) : Host.Outcome State Fault Refusal :=
  execOp (.short .ae r) p s

/-- `JNB rel8` (R76): jump if CF = 0. -/
def execJnbRel8 (p : Prefixes) (r : BitVec 8) (s : State) : Host.Outcome State Fault Refusal :=
  execOp (.short .ae r) p s

/-- `JNC rel8` (R76): jump if CF = 0. -/
def execJncRel8 (p : Prefixes) (r : BitVec 8) (s : State) : Host.Outcome State Fault Refusal :=
  execOp (.short .ae r) p s

/-- `JE rel8` (R77): jump if ZF = 1. -/
def execJeRel8 (p : Prefixes) (r : BitVec 8) (s : State) : Host.Outcome State Fault Refusal :=
  execOp (.short .e r) p s

/-- `JZ rel8` (R77): jump if ZF = 1. -/
def execJzRel8 (p : Prefixes) (r : BitVec 8) (s : State) : Host.Outcome State Fault Refusal :=
  execOp (.short .e r) p s

/-- `JNE rel8` (R78): jump if ZF = 0. -/
def execJneRel8 (p : Prefixes) (r : BitVec 8) (s : State) : Host.Outcome State Fault Refusal :=
  execOp (.short .ne r) p s

/-- `JNZ rel8` (R78): jump if ZF = 0. -/
def execJnzRel8 (p : Prefixes) (r : BitVec 8) (s : State) : Host.Outcome State Fault Refusal :=
  execOp (.short .ne r) p s

/-- `JBE rel8` (R79): jump if CF = 1 or ZF = 1. -/
def execJbeRel8 (p : Prefixes) (r : BitVec 8) (s : State) : Host.Outcome State Fault Refusal :=
  execOp (.short .be r) p s

/-- `JNA rel8` (R79): jump if CF = 1 or ZF = 1. -/
def execJnaRel8 (p : Prefixes) (r : BitVec 8) (s : State) : Host.Outcome State Fault Refusal :=
  execOp (.short .be r) p s

/-- `JA rel8` (R80): jump if CF = 0 and ZF = 0. -/
def execJaRel8 (p : Prefixes) (r : BitVec 8) (s : State) : Host.Outcome State Fault Refusal :=
  execOp (.short .a r) p s

/-- `JNBE rel8` (R80): jump if CF = 0 and ZF = 0. -/
def execJnbeRel8 (p : Prefixes) (r : BitVec 8) (s : State) : Host.Outcome State Fault Refusal :=
  execOp (.short .a r) p s

/-- `JS rel8` (R81): jump if SF = 1. -/
def execJsRel8 (p : Prefixes) (r : BitVec 8) (s : State) : Host.Outcome State Fault Refusal :=
  execOp (.short .s r) p s

/-- `JNS rel8` (R82): jump if SF = 0. -/
def execJnsRel8 (p : Prefixes) (r : BitVec 8) (s : State) : Host.Outcome State Fault Refusal :=
  execOp (.short .ns r) p s

/-- `JP rel8` (R83): jump if PF = 1. -/
def execJpRel8 (p : Prefixes) (r : BitVec 8) (s : State) : Host.Outcome State Fault Refusal :=
  execOp (.short .p r) p s

/-- `JPE rel8` (R83): jump if PF = 1. -/
def execJpeRel8 (p : Prefixes) (r : BitVec 8) (s : State) : Host.Outcome State Fault Refusal :=
  execOp (.short .p r) p s

/-- `JNP rel8` (R84): jump if PF = 0. -/
def execJnpRel8 (p : Prefixes) (r : BitVec 8) (s : State) : Host.Outcome State Fault Refusal :=
  execOp (.short .np r) p s

/-- `JPO rel8` (R84): jump if PF = 0. -/
def execJpoRel8 (p : Prefixes) (r : BitVec 8) (s : State) : Host.Outcome State Fault Refusal :=
  execOp (.short .np r) p s

/-- `JL rel8` (R85): jump if SF ≠ OF. -/
def execJlRel8 (p : Prefixes) (r : BitVec 8) (s : State) : Host.Outcome State Fault Refusal :=
  execOp (.short .l r) p s

/-- `JNGE rel8` (R85): jump if SF ≠ OF. -/
def execJngeRel8 (p : Prefixes) (r : BitVec 8) (s : State) : Host.Outcome State Fault Refusal :=
  execOp (.short .l r) p s

/-- `JGE rel8` (R86): jump if SF = OF. -/
def execJgeRel8 (p : Prefixes) (r : BitVec 8) (s : State) : Host.Outcome State Fault Refusal :=
  execOp (.short .ge r) p s

/-- `JNL rel8` (R86): jump if SF = OF. -/
def execJnlRel8 (p : Prefixes) (r : BitVec 8) (s : State) : Host.Outcome State Fault Refusal :=
  execOp (.short .ge r) p s

/-- `JLE rel8` (R87): jump if ZF = 1 or SF ≠ OF. -/
def execJleRel8 (p : Prefixes) (r : BitVec 8) (s : State) : Host.Outcome State Fault Refusal :=
  execOp (.short .le r) p s

/-- `JNG rel8` (R87): jump if ZF = 1 or SF ≠ OF. -/
def execJngRel8 (p : Prefixes) (r : BitVec 8) (s : State) : Host.Outcome State Fault Refusal :=
  execOp (.short .le r) p s

/-- `JG rel8` (R88): jump if ZF = 0 and SF = OF. -/
def execJgRel8 (p : Prefixes) (r : BitVec 8) (s : State) : Host.Outcome State Fault Refusal :=
  execOp (.short .g r) p s

/-- `JNLE rel8` (R88): jump if ZF = 0 and SF = OF. -/
def execJnleRel8 (p : Prefixes) (r : BitVec 8) (s : State) : Host.Outcome State Fault Refusal :=
  execOp (.short .g r) p s

end Sys2Proof.Machine
end

