-- ==== Sys2Proof/Machine/Dispatch.lean ====
section
/-! DEFINITION. The dispatch: one arm per constructor of `Instr`, each one direct call of its meaning. No arm is
rejected by name. -/

namespace Sys2Proof.Machine

def exec (i : Instr) (s : State) : Host.Outcome State Fault Refusal :=
  match i with
  | .joRel8 p r => Sys2Proof.Machine.execJoRel8 p r s
  | .jnoRel8 p r => Sys2Proof.Machine.execJnoRel8 p r s
  | .jbRel8 p r => Sys2Proof.Machine.execJbRel8 p r s
  | .jcRel8 p r => Sys2Proof.Machine.execJcRel8 p r s
  | .jnaeRel8 p r => Sys2Proof.Machine.execJnaeRel8 p r s
  | .jaeRel8 p r => Sys2Proof.Machine.execJaeRel8 p r s
  | .jnbRel8 p r => Sys2Proof.Machine.execJnbRel8 p r s
  | .jncRel8 p r => Sys2Proof.Machine.execJncRel8 p r s
  | .jeRel8 p r => Sys2Proof.Machine.execJeRel8 p r s
  | .jzRel8 p r => Sys2Proof.Machine.execJzRel8 p r s
  | .jneRel8 p r => Sys2Proof.Machine.execJneRel8 p r s
  | .jnzRel8 p r => Sys2Proof.Machine.execJnzRel8 p r s
  | .jbeRel8 p r => Sys2Proof.Machine.execJbeRel8 p r s
  | .jnaRel8 p r => Sys2Proof.Machine.execJnaRel8 p r s
  | .jaRel8 p r => Sys2Proof.Machine.execJaRel8 p r s
  | .jnbeRel8 p r => Sys2Proof.Machine.execJnbeRel8 p r s
  | .jsRel8 p r => Sys2Proof.Machine.execJsRel8 p r s
  | .jnsRel8 p r => Sys2Proof.Machine.execJnsRel8 p r s
  | .jpRel8 p r => Sys2Proof.Machine.execJpRel8 p r s
  | .jpeRel8 p r => Sys2Proof.Machine.execJpeRel8 p r s
  | .jnpRel8 p r => Sys2Proof.Machine.execJnpRel8 p r s
  | .jpoRel8 p r => Sys2Proof.Machine.execJpoRel8 p r s
  | .jlRel8 p r => Sys2Proof.Machine.execJlRel8 p r s
  | .jngeRel8 p r => Sys2Proof.Machine.execJngeRel8 p r s
  | .jgeRel8 p r => Sys2Proof.Machine.execJgeRel8 p r s
  | .jnlRel8 p r => Sys2Proof.Machine.execJnlRel8 p r s
  | .jleRel8 p r => Sys2Proof.Machine.execJleRel8 p r s
  | .jngRel8 p r => Sys2Proof.Machine.execJngRel8 p r s
  | .jgRel8 p r => Sys2Proof.Machine.execJgRel8 p r s
  | .jnleRel8 p r => Sys2Proof.Machine.execJnleRel8 p r s
  | .jcxz p r => Sys2Proof.Machine.execJcxz p r s
  | .jecxz p r => Sys2Proof.Machine.execJecxz p r s
  | .jrcxz p r => Sys2Proof.Machine.execJrcxz p r s
  | .joRel16 p r => Sys2Proof.Machine.execJoRel16 p r s
  | .jnoRel16 p r => Sys2Proof.Machine.execJnoRel16 p r s
  | .jbRel16 p r => Sys2Proof.Machine.execJbRel16 p r s
  | .jcRel16 p r => Sys2Proof.Machine.execJcRel16 p r s
  | .jnaeRel16 p r => Sys2Proof.Machine.execJnaeRel16 p r s
  | .jaeRel16 p r => Sys2Proof.Machine.execJaeRel16 p r s
  | .jnbRel16 p r => Sys2Proof.Machine.execJnbRel16 p r s
  | .jncRel16 p r => Sys2Proof.Machine.execJncRel16 p r s
  | .jeRel16 p r => Sys2Proof.Machine.execJeRel16 p r s
  | .jzRel16 p r => Sys2Proof.Machine.execJzRel16 p r s
  | .jneRel16 p r => Sys2Proof.Machine.execJneRel16 p r s
  | .jnzRel16 p r => Sys2Proof.Machine.execJnzRel16 p r s
  | .jbeRel16 p r => Sys2Proof.Machine.execJbeRel16 p r s
  | .jnaRel16 p r => Sys2Proof.Machine.execJnaRel16 p r s
  | .jaRel16 p r => Sys2Proof.Machine.execJaRel16 p r s
  | .jnbeRel16 p r => Sys2Proof.Machine.execJnbeRel16 p r s
  | .jsRel16 p r => Sys2Proof.Machine.execJsRel16 p r s
  | .jnsRel16 p r => Sys2Proof.Machine.execJnsRel16 p r s
  | .jpRel16 p r => Sys2Proof.Machine.execJpRel16 p r s
  | .jpeRel16 p r => Sys2Proof.Machine.execJpeRel16 p r s
  | .jnpRel16 p r => Sys2Proof.Machine.execJnpRel16 p r s
  | .jpoRel16 p r => Sys2Proof.Machine.execJpoRel16 p r s
  | .jlRel16 p r => Sys2Proof.Machine.execJlRel16 p r s
  | .jngeRel16 p r => Sys2Proof.Machine.execJngeRel16 p r s
  | .jgeRel16 p r => Sys2Proof.Machine.execJgeRel16 p r s
  | .jnlRel16 p r => Sys2Proof.Machine.execJnlRel16 p r s
  | .jleRel16 p r => Sys2Proof.Machine.execJleRel16 p r s
  | .jngRel16 p r => Sys2Proof.Machine.execJngRel16 p r s
  | .jgRel16 p r => Sys2Proof.Machine.execJgRel16 p r s
  | .jnleRel16 p r => Sys2Proof.Machine.execJnleRel16 p r s
  | .joRel32 p r => Sys2Proof.Machine.execJoRel32 p r s
  | .jnoRel32 p r => Sys2Proof.Machine.execJnoRel32 p r s
  | .jbRel32 p r => Sys2Proof.Machine.execJbRel32 p r s
  | .jcRel32 p r => Sys2Proof.Machine.execJcRel32 p r s
  | .jnaeRel32 p r => Sys2Proof.Machine.execJnaeRel32 p r s
  | .jaeRel32 p r => Sys2Proof.Machine.execJaeRel32 p r s
  | .jnbRel32 p r => Sys2Proof.Machine.execJnbRel32 p r s
  | .jncRel32 p r => Sys2Proof.Machine.execJncRel32 p r s
  | .jeRel32 p r => Sys2Proof.Machine.execJeRel32 p r s
  | .jzRel32 p r => Sys2Proof.Machine.execJzRel32 p r s
  | .jneRel32 p r => Sys2Proof.Machine.execJneRel32 p r s
  | .jnzRel32 p r => Sys2Proof.Machine.execJnzRel32 p r s
  | .jbeRel32 p r => Sys2Proof.Machine.execJbeRel32 p r s
  | .jnaRel32 p r => Sys2Proof.Machine.execJnaRel32 p r s
  | .jaRel32 p r => Sys2Proof.Machine.execJaRel32 p r s
  | .jnbeRel32 p r => Sys2Proof.Machine.execJnbeRel32 p r s
  | .jsRel32 p r => Sys2Proof.Machine.execJsRel32 p r s
  | .jnsRel32 p r => Sys2Proof.Machine.execJnsRel32 p r s
  | .jpRel32 p r => Sys2Proof.Machine.execJpRel32 p r s
  | .jpeRel32 p r => Sys2Proof.Machine.execJpeRel32 p r s
  | .jnpRel32 p r => Sys2Proof.Machine.execJnpRel32 p r s
  | .jpoRel32 p r => Sys2Proof.Machine.execJpoRel32 p r s
  | .jlRel32 p r => Sys2Proof.Machine.execJlRel32 p r s
  | .jngeRel32 p r => Sys2Proof.Machine.execJngeRel32 p r s
  | .jgeRel32 p r => Sys2Proof.Machine.execJgeRel32 p r s
  | .jnlRel32 p r => Sys2Proof.Machine.execJnlRel32 p r s
  | .jleRel32 p r => Sys2Proof.Machine.execJleRel32 p r s
  | .jngRel32 p r => Sys2Proof.Machine.execJngRel32 p r s
  | .jgRel32 p r => Sys2Proof.Machine.execJgRel32 p r s
  | .jnleRel32 p r => Sys2Proof.Machine.execJnleRel32 p r s

end Sys2Proof.Machine
end

