-- ==== Sys2Proof/WellFormed.lean ====
section
/-! DEFINITION. Well-formedness of an instruction (30_encoding.md R50, R53, R54, R59): the configuration's decoder
could have produced these leading bytes with this form. It depends on the configuration, as R59's constraints do. -/

namespace Sys2Proof

/-- `i` is well-formed under `c`: no leading byte stands twice (R50), and its form exists in the mode and under the
effective sizes (R53, R54, R59). -/
def Instr.wf (c : Config) (i : Instr) : Bool := Machine.encodable c (Machine.prefixesOf i) (Machine.opOf i)

end Sys2Proof
end

