-- ==== Sys2Proof/Decode.lean ====
section
/-! DEFINITION. The decoder of 30_encoding.md R56, total on any bytes and rejecting by name; after it the encoder,
written from the format tables R44 to R47 and R49; and `decodeTableWord`, the decoder on a row of
spec/opcode_table.json. The decoder reads a list of bytes from the front, left to right, and says when the list ended
before the instruction did: the fetch (Machine/Fetch.lean) hands it the bytes in the order of 20_memory.md R29. -/

namespace Sys2Proof

/-- The condition number as the low four bits of the opcode byte (R48, R57). -/
def Cond.nibble (cc : Cond) : BitVec 4 :=
  match cc with
  | .o => 0x0#4
  | .no => 0x1#4
  | .b => 0x2#4
  | .ae => 0x3#4
  | .e => 0x4#4
  | .ne => 0x5#4
  | .be => 0x6#4
  | .a => 0x7#4
  | .s => 0x8#4
  | .ns => 0x9#4
  | .p => 0xA#4
  | .np => 0xB#4
  | .l => 0xC#4
  | .ge => 0xD#4
  | .le => 0xE#4
  | .g => 0xF#4

/-- The condition an opcode's low four bits name (R48, R57). -/
def Cond.ofNibble (n : BitVec 4) : Cond :=
  match n.toNat with
  | 0 => .o
  | 1 => .no
  | 2 => .b
  | 3 => .ae
  | 4 => .e
  | 5 => .ne
  | 6 => .be
  | 7 => .a
  | 8 => .s
  | 9 => .ns
  | 10 => .p
  | 11 => .np
  | 12 => .l
  | 13 => .ge
  | 14 => .le
  | _ => .g

/-- Why the decoder gives a byte string no meaning (R50, R53, R56, R58). -/
inductive DecodeRefusal where
  | opcodeOutOfScope            -- not `7x`, `E3` or `0F 8x` after the admitted leading bytes
  | duplicatePrefix             -- one admitted leading byte twice
  | nearJccWith66HIn64BitMode   -- 66H before `0F 8x` in 64-bit mode
  deriving DecidableEq, Repr

/-- What the decoder answers on a list of bytes. -/
inductive DecodeResult where
  | ok (i : Instr) (rest : List Byte)  -- an instruction, and the bytes after it
  | refused (r : DecodeRefusal)        -- no instruction of the family, by name
  | short                              -- the list ended before the instruction did
  deriving DecidableEq, Repr

/-- The leading byte a byte value spells (R50, byte values marked general knowledge there). -/
def prefixOfByte (b : Byte) : Option Prefix :=
  if b = 0x66#8 then some .opSize
  else if b = 0x67#8 then some .addrSize
  else if b = 0xF0#8 then some .lock
  else none

/-- The canonical instruction of a short jump (format S) (R61: the first mnemonic the source's table lists for the opcode). -/
def shortInstr (cc : Cond) (p : Prefixes) (r : BitVec 8) : Instr :=
  match cc with
  | .o => .joRel8 p r
  | .no => .jnoRel8 p r
  | .b => .jbRel8 p r
  | .ae => .jaeRel8 p r
  | .e => .jeRel8 p r
  | .ne => .jneRel8 p r
  | .be => .jbeRel8 p r
  | .a => .jaRel8 p r
  | .s => .jsRel8 p r
  | .ns => .jnsRel8 p r
  | .p => .jpRel8 p r
  | .np => .jnpRel8 p r
  | .l => .jlRel8 p r
  | .ge => .jgeRel8 p r
  | .le => .jleRel8 p r
  | .g => .jgRel8 p r

/-- The canonical instruction of a near jump with a 16-bit offset (format N16) (R61: the first mnemonic the source's table lists for the opcode). -/
def near16Instr (cc : Cond) (p : Prefixes) (r : BitVec 16) : Instr :=
  match cc with
  | .o => .joRel16 p r
  | .no => .jnoRel16 p r
  | .b => .jbRel16 p r
  | .ae => .jaeRel16 p r
  | .e => .jeRel16 p r
  | .ne => .jneRel16 p r
  | .be => .jbeRel16 p r
  | .a => .jaRel16 p r
  | .s => .jsRel16 p r
  | .ns => .jnsRel16 p r
  | .p => .jpRel16 p r
  | .np => .jnpRel16 p r
  | .l => .jlRel16 p r
  | .ge => .jgeRel16 p r
  | .le => .jleRel16 p r
  | .g => .jgRel16 p r

/-- The canonical instruction of a near jump with a 32-bit offset (format N32) (R61: the first mnemonic the source's table lists for the opcode). -/
def near32Instr (cc : Cond) (p : Prefixes) (r : BitVec 32) : Instr :=
  match cc with
  | .o => .joRel32 p r
  | .no => .jnoRel32 p r
  | .b => .jbRel32 p r
  | .ae => .jaeRel32 p r
  | .e => .jeRel32 p r
  | .ne => .jneRel32 p r
  | .be => .jbeRel32 p r
  | .a => .jaRel32 p r
  | .s => .jsRel32 p r
  | .ns => .jnsRel32 p r
  | .p => .jpRel32 p r
  | .np => .jnpRel32 p r
  | .l => .jlRel32 p r
  | .ge => .jgeRel32 p r
  | .le => .jleRel32 p r
  | .g => .jgRel32 p r

/-- The instruction `E3 cb` spells under an address size (R45, R89). -/
def countInstr (size : Size) (p : Prefixes) (r : BitVec 8) : Instr :=
  match size with
  | .bits16 => .jcxz p r
  | .bits32 => .jecxz p r
  | .bits64 => .jrcxz p r

/-- The canonical instruction of an operation (R61, R89). -/
def Machine.Op.toInstr (op : Machine.Op) (p : Prefixes) : Instr :=
  match op with
  | .short cc r => shortInstr cc p r
  | .count size r => countInstr size p r
  | .near16 cc r => near16Instr cc p r
  | .near32 cc r => near32Instr cc p r

/-- The instruction with the canonical mnemonic of the same bytes (R61). -/
def Instr.canonical (i : Instr) : Instr := (Machine.opOf i).toInstr (Machine.prefixesOf i)

/-- Two offset bytes, low byte first (R30, R49: `imm16 = b1 ++ b0`). -/
def joinBytes16 (b0 b1 : Byte) : BitVec 16 := b1 ++ b0

/-- Four offset bytes, low byte first (R30, R49: `imm32 = b3 ++ b2 ++ b1 ++ b0`). -/
def joinBytes32 (b0 b1 b2 b3 : Byte) : BitVec 32 := b3 ++ b2 ++ b1 ++ b0

/-- The offset field and the bytes after it of a near jump, behind `0F 8x` (R53, R56). -/
def decodeNear (c : Config) (p : Prefixes) (cc : Cond) (bs : List Byte) : DecodeResult :=
  if c.mode = .long64 ∧ Prefix.opSize ∈ p then .refused .nearJccWith66HIn64BitMode
  else if Machine.operandSize c p = .bits16 then
    match bs with
    | b0 :: b1 :: rest => .ok (near16Instr cc p (joinBytes16 b0 b1)) rest
    | _ => .short
  else
    match bs with
    | b0 :: b1 :: b2 :: b3 :: rest => .ok (near32Instr cc p (joinBytes32 b0 b1 b2 b3)) rest
    | _ => .short

/-- The opcode and what follows it (R56): `b` is the first byte that is no admitted leading byte. -/
def decodeOpcode (c : Config) (p : Prefixes) (b : Byte) (bs : List Byte) : DecodeResult :=
  if b.extractLsb' 4 4 = 0x7#4 then
    match bs with
    | [] => .short
    | r :: rest => .ok (shortInstr (Cond.ofNibble (b.extractLsb' 0 4)) p r) rest
  else if b = 0xE3#8 then
    match bs with
    | [] => .short
    | r :: rest => .ok (countInstr (Machine.addressSize c p) p r) rest
  else if b = 0x0F#8 then
    match bs with
    | [] => .short
    | b' :: rest =>
      if b'.extractLsb' 4 4 = 0x8#4 then decodeNear c p (Cond.ofNibble (b'.extractLsb' 0 4)) rest
      else .refused .opcodeOutOfScope
  else .refused .opcodeOutOfScope

/-- The loop over leading bytes (R56): `p` holds those read so far. -/
def decodeFrom (c : Config) (p : Prefixes) (bs : List Byte) : DecodeResult :=
  match bs with
  | [] => .short
  | b :: rest =>
    match prefixOfByte b with
    | some q => if q ∈ p then .refused .duplicatePrefix else decodeFrom c (p ++ [q]) rest
    | none => decodeOpcode c p b rest

/-- The decoder (R56). -/
def decode (c : Config) (bs : List Byte) : DecodeResult := decodeFrom c [] bs

/-- The longest instruction: three leading bytes, two opcode bytes, four offset bytes (R55). -/
def maxLength : Nat := 9

/-! ### The encoder -/

/-- The byte of a leading byte (R50). -/
def prefixByte (q : Prefix) : Byte :=
  match q with
  | .opSize => 0x66#8
  | .addrSize => 0x67#8
  | .lock => 0xF0#8

/-- The opcode byte of a short jump: bits 7:4 are `0111`, bits 3:0 the condition number (R44). -/
def shortOpcode (cc : Cond) : Byte := (0x7#4 ++ Cond.nibble cc : BitVec 8)

/-- The second opcode byte of a near jump: bits 7:4 are `1000`, bits 3:0 the condition number (R46, R47). -/
def nearOpcode (cc : Cond) : Byte := (0x8#4 ++ Cond.nibble cc : BitVec 8)

/-- The opcode and offset bytes of an operation (R44 to R47, R49). -/
def opBytes (op : Machine.Op) : List Byte :=
  match op with
  | .short cc r => [shortOpcode cc, r]
  | .count _ r => [0xE3#8, r]
  | .near16 cc r => [0x0F#8, nearOpcode cc, r.extractLsb' 0 8, r.extractLsb' 8 8]
  | .near32 cc r =>
    [0x0F#8, nearOpcode cc, r.extractLsb' 0 8, r.extractLsb' 8 8, r.extractLsb' 16 8, r.extractLsb' 24 8]

/-- The bytes of an operation behind leading bytes (R43). -/
def encodeOp (p : Prefixes) (op : Machine.Op) : List Byte := p.map prefixByte ++ opBytes op

/-- The encoder. -/
def encode (i : Instr) : List Byte := encodeOp (Machine.prefixesOf i) (Machine.opOf i)

/-! ### The opcode table's words -/

/-- The bytes of a table word: the table writes the opcode bytes as one number with the FIRST byte most significant
(R57); zeros follow up to the longest instruction (notes/assumptions/5.md). -/
def tableBytes (nbits w : Nat) : List Byte :=
  (List.range (nbits / 8)).map (fun k => BitVec.ofNat 8 (w >>> (8 * (nbits / 8 - 1 - k))))
    ++ List.replicate (maxLength - nbits / 8) 0#8

/-- The instruction the decoder reads from a table word, under the configuration after reset
(notes/assumptions/1.md and 5.md). -/
def decodeTableWord (nbits w : Nat) : Option Instr :=
  match decode Config.reset (tableBytes nbits w) with
  | .ok i _ => some i
  | .refused _ => none
  | .short => none

end Sys2Proof
end

