-- ==== Sys2Proof/Machine/Fetch.lean ====
section
/-! DEFINITION. Fetching an instruction: the fetch primitive of 20_memory.md R29, the bytes in its order, and the
decoder of 30_encoding.md R56 on them. The decoder looks at no byte behind the one it stops at, so it is handed the
longest run of bytes that can be fetched, at most the length of the longest instruction, with what ended that run: a
fault or refusal of the fetch counts exactly when the decoder would have read the byte. -/

namespace Sys2Proof.Machine

/-- Whether `off` lies where instructions may be fetched (R29): canonical in 64-bit mode, within the limit elsewhere. -/
def fetchable (c : Config) (off : Offset) : Bool :=
  if c.mode = .long64 then canonical c.vaBits off
  else decide (off.extractLsb' 32 32 = 0#32) && decide (off.setWidth 32 ≤ c.csLimit)

/-- `Fetch(off)` (R29). -/
def fetch (s : State) (off : Offset) : Host.Outcome Byte Fault Refusal :=
  if !fetchable s.config off then raise .gp s
  else
    match s.code.read off.toNat with
    | some b => .next b
    | none => .refused (.fetchOutsideImage off)

/-- The bytes at `off`, `off +_W 1`, …, at most `n`, up to the first that fails, and what a reader past the last of them
meets (R29). Past the `n`-th byte that is the answer of an image that ends there; no instruction reads so far (R55). -/
def fetchWindow (s : State) (n : Nat) (off : Offset) : List Byte × Host.Outcome Instr Fault Refusal :=
  match n with
  | 0 => ([], .refused (.fetchOutsideImage off))
  | n + 1 =>
    match fetch s off with
    | .next b => let w := fetchWindow s n (addOffset s.config off 1#64); (b :: w.1, w.2)
    | .fault f => ([], .fault f)
    | .refused r => ([], .refused r)

/-- A refusal of the decoder as a refusal of the step (R132). -/
def refusalOf (r : DecodeRefusal) : Refusal :=
  match r with
  | .opcodeOutOfScope => .opcodeOutOfScope
  | .duplicatePrefix => .duplicatePrefix
  | .nearJccWith66HIn64BitMode => .nearJccWith66HIn64BitMode

/-- `Decode(a)` at `a = ip` (R56). -/
def fetchInstr (s : State) : Host.Outcome Instr Fault Refusal :=
  let w := fetchWindow s maxLength s.ip
  match decode s.config w.1 with
  | .ok i _ => .next i
  | .refused r => .refused (refusalOf r)
  | .short => w.2

end Sys2Proof.Machine
end

