-- ==== Sys2Proof/Machine/Step.lean ====
section
/-! DEFINITION. One step of the machine (40_jcc_common.md R65, R71): the exit test, then the fetch and decode, then the
instruction; and the host's way to put an instruction where the next step fetches. -/

namespace Sys2Proof.Machine

/-- One step (R65): the exit test comes before any fetch (R142); a fetch fault or a refusal ends the step (R71). -/
def step (s : State) : Host.Outcome State Fault Refusal :=
  if s.ip.toNat ∈ s.exits then .refused .exit
  else
    match fetchInstr s with
    | .next i => exec i s
    | .fault f => .fault f
    | .refused r => .refused r

/-- `s` with the table word `w` laid out at `ip` and `ip` taken out of the exit set, so that the next step fetches it
(notes/assumptions/5.md). The flags, the count register, `ip` and the configuration are untouched. -/
def State.withFetchWord (s : State) (nbits w : Nat) : State :=
  { s with
    code := writeBytes s.config s.code s.ip (tableBytes nbits w)
    exits := s.exits.filter (fun e => decide (e ≠ s.ip.toNat)) }

end Sys2Proof.Machine
end

