-- ==== Sys2Proof/Safety.lean ====
section
/-! DEFINITION. The terms in which claims about the machine are stated: the invariant, the offsets of R14 and R67 to R69
as integer arithmetic (written apart from the bit-vector arithmetic the machine computes with), when a jump has the
effect the spec gives it, the bytes at an offset, and outcomes up to a change of state. -/

namespace Sys2Proof.Machine

/-! ### The invariant -/

/-- What holds of every state a launch may give (R140 (a) and (b)) and every step keeps: the configuration is
well-formed (R22); outside 64-bit mode `ip[63:32]` is zero (R15); the code image and the exit set are in canonical
form. -/
abbrev State.Inv (s : State) : Prop :=
  s.config.wf = true ∧ (s.config.mode ≠ .long64 → s.ip.toNat < 2 ^ 32) ∧ s.code.wf = true ∧ s.exits.wf = true

/-! ### Offsets as integers -/

/-- The width of the instruction pointer: 64 in 64-bit mode, 32 elsewhere (R15, R65). -/
def ipBits (c : Config) : Nat := if c.mode = .long64 then 64 else 32

/-- `next = a + len` modulo `2^W` (R14, R66). -/
def nextOffset (c : Config) (a len : Nat) : Nat := (a + len) % 2 ^ ipBits c

/-- The target of a taken jump (R67, R68, R72): the sum of `a`, `len` and the signed offset modulo `2^W`; under operand
size 16 its low 16 bits. -/
def targetOffset (c : Config) (p : Prefixes) (a len : Nat) (rel : Int) : Nat :=
  if operandSize c p = .bits16 then ((((a + len : Nat) : Int) + rel) % 2 ^ ipBits c).toNat % 2 ^ 16
  else ((((a + len : Nat) : Int) + rel) % 2 ^ ipBits c).toNat

/-- Where a taken jump may go (R34 to R36, R69): within the limit, in real-address and virtual-8086 mode also not above
FFFFH, in 64-bit mode in canonical form. -/
abbrev inBounds (c : Config) (t : Nat) : Prop :=
  match c.mode with
  | .protectedMode => t ≤ c.csLimit.toNat
  | .compat => t ≤ c.csLimit.toNat
  | .real => t ≤ c.csLimit.toNat ∧ t ≤ 0xFFFF
  | .v8086 => t ≤ c.csLimit.toNat ∧ t ≤ 0xFFFF
  | .long64 => t < 2 ^ (c.vaBits - 1) ∨ 2 ^ 64 ≤ t + 2 ^ (c.vaBits - 1)

/-- The fault of a taken jump that may not go there (R127 to R129): `#GP` in real-address and virtual-8086 mode,
`#GP(0)` elsewhere, at the instruction at `a`. -/
def targetFault (c : Config) (a : Offset) : Fault :=
  if c.mode = .real ∨ c.mode = .v8086 then .gp a else .gp0 a

/-- The offset operand of an instruction as a signed number of bytes (R49). -/
def relInt (i : Instr) : Int :=
  match opOf i with
  | .short _ r => r.toInt
  | .count _ r => r.toInt
  | .near16 _ r => r.toInt
  | .near32 _ r => r.toInt

/-- The offset of the instruction after `i`, for `i` at the state's `ip`. -/
def nextAt (i : Instr) (s : State) : Nat :=
  nextOffset s.config s.ip.toNat (lengthOf (prefixesOf i) (opOf i))

/-- The target of `i` when it is taken, for `i` at the state's `ip`. -/
def targetAt (i : Instr) (s : State) : Nat :=
  targetOffset s.config (prefixesOf i) s.ip.toNat (lengthOf (prefixesOf i) (opOf i)) (relInt i)

/-- Whether `i` is taken in `s`: its condition (R63) or its test of the count register (R64). -/
def takenAt (i : Instr) (s : State) : Bool := taken (opOf i) s

/-! ### What a jump does -/

/-- `i` is the conditional jump on `cond`: in every state, when some byte string spells `i` there and it has no LOCK
byte, then with `cond` false only `ip` changes, to the following instruction (R66); with `cond` true and a target in
bounds only `ip` changes, to the target (R67, R68); with `cond` true and a target out of bounds it faults (R69). With a
LOCK byte it raises `#UD` whether `cond` holds or not (R130); and where no byte string spells it, it is refused
(R54, R58). -/
def JumpsWhen (i : Instr) (cond : State → Prop) : Prop :=
  ∀ s : State,
    (i.wf s.config = true → Prefix.lock ∉ prefixesOf i →
      (¬ cond s → exec i s = .next { s with ip := BitVec.ofNat 64 (nextAt i s) }) ∧
      (cond s → inBounds s.config (targetAt i s) →
        exec i s = .next { s with ip := BitVec.ofNat 64 (targetAt i s) }) ∧
      (cond s → ¬ inBounds s.config (targetAt i s) → exec i s = .fault (targetFault s.config s.ip))) ∧
    (i.wf s.config = true → Prefix.lock ∈ prefixesOf i → exec i s = .fault (.ud s.ip)) ∧
    (i.wf s.config = false → exec i s = .refused .notEncodable)

/-! ### Bytes at an offset -/

/-- Fetching from `off` on gives the bytes `bs`, in the order of R29. -/
def fetchesBytes (s : State) (off : Offset) (bs : List Byte) : Prop :=
  match bs with
  | [] => True
  | b :: rest => fetch s off = .next b ∧ fetchesBytes s (addOffset s.config off 1#64) rest

/-- The offset `n` bytes after `off`, a byte at a time (R29). -/
def offsetAfter (c : Config) (off : Offset) (n : Nat) : Offset :=
  match n with
  | 0 => off
  | n + 1 => offsetAfter c (addOffset c off 1#64) n

/-! ### Outcomes -/

/-- An outcome with its next state changed by `f`; a fault or a refusal stays as it is. -/
def mapNext (f : State → State) (o : Host.Outcome State Fault Refusal) : Host.Outcome State Fault Refusal :=
  match o with
  | .next s => .next (f s)
  | .fault r => .fault r
  | .refused r => .refused r

/-- The `ip` of the next state, if there is one. -/
def ipAfter (o : Host.Outcome State Fault Refusal) : Option Offset :=
  match o with
  | .next s => some s.ip
  | .fault _ => none
  | .refused _ => none

/-- The next state, if there is one. -/
def stateAfter (o : Host.Outcome State Fault Refusal) : Option State :=
  match o with
  | .next s => some s
  | .fault _ => none
  | .refused _ => none

/-- The fault, if there is one. -/
def faultOf (o : Host.Outcome State Fault Refusal) : Option Fault :=
  match o with
  | .next _ => none
  | .fault f => some f
  | .refused _ => none

/-- The refusal, if there is one. -/
def refusalIn (o : Host.Outcome State Fault Refusal) : Option Refusal :=
  match o with
  | .next _ => none
  | .fault _ => none
  | .refused r => some r

/-! ### Runs -/

/-- The run from `s` is over, successfully (R142): a step from here answers `Exit`. -/
def State.finished (s : State) : Prop := s.ip.toNat ∈ s.exits

/-- A run never ends (R142): every number of steps from `s` gives a next state. -/
def runsForever (s : State) : Prop := ∀ k : Nat, ∃ t, Sys2Proof.core.run k s = .next t

/-- A run ends within `n` steps: some number of steps up to `n` ends in a fault or a refusal (the end of a run,
R142, among them). -/
def endsWithin (n : Nat) (s : State) : Prop :=
  ∃ k, k ≤ n ∧ ((∃ f, Sys2Proof.core.run k s = .fault f) ∨ (∃ r, Sys2Proof.core.run k s = .refused r))

end Sys2Proof.Machine
end

