-- ==== Sys2Proof/Certificates/Slice0/Obligations.lean ====
section
/-! DEFINITION. The statements for the provers. Each docstring names the rule of spec/ it formalises, or the
sections it is derived from and the log entries it rests on. `JumpsWhen`, `targetAt`, `nextAt`, `inBounds`, `takenAt`
and the other terms are defined in Safety.lean, the offsets there in integer arithmetic. -/

open Sys2Proof Sys2Proof.Machine

/-- Seven byte strings written out from the format tables decode to the instruction they stand for: a short jump with
and without leading bytes, the count-register jump under three address sizes, a near jump with a 16-bit and one with
a 32-bit offset. The choices of the spec and of the model that it rests on are in notes/assumptions, entry 10.
Derived from 30_encoding.md sections 1 to 4; 95_test_vectors.md sections 2.2 to 2.5. -/
def Obligations.SampleWordsDecode : Prop :=
  let real16 : Config := ⟨.real, .bits16, .bits16, 0xFFFF#32, 48⟩
  let prot32 : Config := ⟨.protectedMode, .bits32, .bits32, 0xFFFFFFFF#32, 48⟩
  let long : Config := ⟨.long64, .bits32, .bits32, 0#32, 48⟩
  decode prot32 [0x77#8, 0x10#8] = .ok (.jaRel8 [] 0x10#8) [] ∧
  decode prot32 [0x66#8, 0xF0#8, 0x74#8, 0x80#8] = .ok (.jeRel8 [.opSize, .lock] 0x80#8) [] ∧
  decode real16 [0xE3#8, 0x10#8] = .ok (.jcxz [] 0x10#8) [] ∧
  decode prot32 [0xE3#8, 0xF0#8] = .ok (.jecxz [] 0xF0#8) [] ∧
  decode long [0x66#8, 0xE3#8, 0x7F#8] = .ok (.jrcxz [.opSize] 0x7F#8) [] ∧
  decode real16 [0x0F#8, 0x84#8, 0x34#8, 0x12#8] = .ok (.jeRel16 [] 0x1234#16) [] ∧
  decode prot32 [0x0F#8, 0x8F#8, 0x78#8, 0x56#8, 0x34#8, 0x12#8, 0x90#8] = .ok (.jgRel32 [] 0x12345678#32) [0x90#8]

/-- Under every configuration, the bytes 7xH, r decode to the short jump of condition x with offset r, under the first
mnemonic of its opcode, for all sixteen x, every r and whatever follows; and the opcode byte has 0111 in bits 7:4
and the condition number in bits 3:0. The choices of the spec and of the model that it rests on are in
notes/assumptions, entries 10, 12. Derived from 30_encoding.md section 1 (R44, R48); 30_encoding.md section 5 (R57);
30_encoding.md section 7 (R61); 92_eei_decisions.md D23. -/
def Obligations.ShortOpcodesDecode : Prop :=
  ∀ (c : Config) (r : Byte) (rest : List Byte),
    decode c (0x70#8 :: r :: rest) = .ok (.joRel8 [] r) rest ∧
    decode c (0x71#8 :: r :: rest) = .ok (.jnoRel8 [] r) rest ∧
    decode c (0x72#8 :: r :: rest) = .ok (.jbRel8 [] r) rest ∧
    decode c (0x73#8 :: r :: rest) = .ok (.jaeRel8 [] r) rest ∧
    decode c (0x74#8 :: r :: rest) = .ok (.jeRel8 [] r) rest ∧
    decode c (0x75#8 :: r :: rest) = .ok (.jneRel8 [] r) rest ∧
    decode c (0x76#8 :: r :: rest) = .ok (.jbeRel8 [] r) rest ∧
    decode c (0x77#8 :: r :: rest) = .ok (.jaRel8 [] r) rest ∧
    decode c (0x78#8 :: r :: rest) = .ok (.jsRel8 [] r) rest ∧
    decode c (0x79#8 :: r :: rest) = .ok (.jnsRel8 [] r) rest ∧
    decode c (0x7A#8 :: r :: rest) = .ok (.jpRel8 [] r) rest ∧
    decode c (0x7B#8 :: r :: rest) = .ok (.jnpRel8 [] r) rest ∧
    decode c (0x7C#8 :: r :: rest) = .ok (.jlRel8 [] r) rest ∧
    decode c (0x7D#8 :: r :: rest) = .ok (.jgeRel8 [] r) rest ∧
    decode c (0x7E#8 :: r :: rest) = .ok (.jleRel8 [] r) rest ∧
    decode c (0x7F#8 :: r :: rest) = .ok (.jgRel8 [] r) rest ∧
    ∀ cc : Cond, (shortOpcode cc).toNat = 0x70 + (Cond.nibble cc).toNat ∧ (shortOpcode cc).extractLsb' 4 4 = 0b0111#4 ∧
      (shortOpcode cc).extractLsb' 0 4 = Cond.nibble cc ∧ Cond.ofNibble (Cond.nibble cc) = cc

/-- Behind any leading bytes, none twice, the bytes E3H, r decode to JCXZ when the effective address size is 16, to
JECXZ when it is 32, to JRCXZ when it is 64; all eight bits of the opcode byte are fixed and the next byte is rel8.
The choices of the spec and of the model that it rests on are in notes/assumptions, entry 10. Derived from
30_encoding.md section 1, format C; 42_jcxz.md, head. -/
def Obligations.CountOpcodeSelectsByAddressSize : Prop :=
  ∀ (c : Config) (p : Prefixes) (r : Byte) (rest : List Byte), p.Nodup →
    (addressSize c p = .bits16 → decode c (p.map prefixByte ++ 0xE3#8 :: r :: rest) = .ok (.jcxz p r) rest) ∧
    (addressSize c p = .bits32 → decode c (p.map prefixByte ++ 0xE3#8 :: r :: rest) = .ok (.jecxz p r) rest) ∧
    (addressSize c p = .bits64 → decode c (p.map prefixByte ++ 0xE3#8 :: r :: rest) = .ok (.jrcxz p r) rest)

/-- When the operand size is 16, the bytes 0FH, 8xH, b0, b1 decode to the near jump of condition x with the 16-bit
offset b1 ++ b0, for all sixteen x and whatever follows. The choices of the spec and of the model that it rests on
are in notes/assumptions, entry 10. Derived from 30_encoding.md section 1, format N16 (R46), and section 2 (R49). -/
def Obligations.Near16OpcodesDecode : Prop :=
  ∀ (c : Config) (b0 b1 : Byte) (rest : List Byte), operandSize c [] = .bits16 →
    decode c (0x0F#8 :: 0x80#8 :: b0 :: b1 :: rest) = .ok (.joRel16 [] (b1 ++ b0)) rest ∧
    decode c (0x0F#8 :: 0x81#8 :: b0 :: b1 :: rest) = .ok (.jnoRel16 [] (b1 ++ b0)) rest ∧
    decode c (0x0F#8 :: 0x82#8 :: b0 :: b1 :: rest) = .ok (.jbRel16 [] (b1 ++ b0)) rest ∧
    decode c (0x0F#8 :: 0x83#8 :: b0 :: b1 :: rest) = .ok (.jaeRel16 [] (b1 ++ b0)) rest ∧
    decode c (0x0F#8 :: 0x84#8 :: b0 :: b1 :: rest) = .ok (.jeRel16 [] (b1 ++ b0)) rest ∧
    decode c (0x0F#8 :: 0x85#8 :: b0 :: b1 :: rest) = .ok (.jneRel16 [] (b1 ++ b0)) rest ∧
    decode c (0x0F#8 :: 0x86#8 :: b0 :: b1 :: rest) = .ok (.jbeRel16 [] (b1 ++ b0)) rest ∧
    decode c (0x0F#8 :: 0x87#8 :: b0 :: b1 :: rest) = .ok (.jaRel16 [] (b1 ++ b0)) rest ∧
    decode c (0x0F#8 :: 0x88#8 :: b0 :: b1 :: rest) = .ok (.jsRel16 [] (b1 ++ b0)) rest ∧
    decode c (0x0F#8 :: 0x89#8 :: b0 :: b1 :: rest) = .ok (.jnsRel16 [] (b1 ++ b0)) rest ∧
    decode c (0x0F#8 :: 0x8A#8 :: b0 :: b1 :: rest) = .ok (.jpRel16 [] (b1 ++ b0)) rest ∧
    decode c (0x0F#8 :: 0x8B#8 :: b0 :: b1 :: rest) = .ok (.jnpRel16 [] (b1 ++ b0)) rest ∧
    decode c (0x0F#8 :: 0x8C#8 :: b0 :: b1 :: rest) = .ok (.jlRel16 [] (b1 ++ b0)) rest ∧
    decode c (0x0F#8 :: 0x8D#8 :: b0 :: b1 :: rest) = .ok (.jgeRel16 [] (b1 ++ b0)) rest ∧
    decode c (0x0F#8 :: 0x8E#8 :: b0 :: b1 :: rest) = .ok (.jleRel16 [] (b1 ++ b0)) rest ∧
    decode c (0x0F#8 :: 0x8F#8 :: b0 :: b1 :: rest) = .ok (.jgRel16 [] (b1 ++ b0)) rest ∧
    ∀ cc : Cond, (nearOpcode cc).toNat = 0x80 + (Cond.nibble cc).toNat ∧ (nearOpcode cc).extractLsb' 4 4 = 0b1000#4 ∧
      (nearOpcode cc).extractLsb' 0 4 = Cond.nibble cc

/-- When the operand size is 32 or 64 and no leading byte stands before, the bytes 0FH, 8xH, b0, b1, b2, b3 decode to
the near jump of condition x with the 32-bit offset b3 ++ b2 ++ b1 ++ b0, for all sixteen x and whatever follows.
The choices of the spec and of the model that it rests on are in notes/assumptions, entry 10. Derived from
30_encoding.md section 1, format N32 (R47), and section 2 (R49). -/
def Obligations.Near32OpcodesDecode : Prop :=
  ∀ (c : Config) (b0 b1 b2 b3 : Byte) (rest : List Byte), operandSize c [] ≠ .bits16 →
    decode c (0x0F#8 :: 0x80#8 :: b0 :: b1 :: b2 :: b3 :: rest) =
      .ok (.joRel32 [] (b3 ++ b2 ++ b1 ++ b0)) rest ∧
    decode c (0x0F#8 :: 0x81#8 :: b0 :: b1 :: b2 :: b3 :: rest) =
      .ok (.jnoRel32 [] (b3 ++ b2 ++ b1 ++ b0)) rest ∧
    decode c (0x0F#8 :: 0x82#8 :: b0 :: b1 :: b2 :: b3 :: rest) =
      .ok (.jbRel32 [] (b3 ++ b2 ++ b1 ++ b0)) rest ∧
    decode c (0x0F#8 :: 0x83#8 :: b0 :: b1 :: b2 :: b3 :: rest) =
      .ok (.jaeRel32 [] (b3 ++ b2 ++ b1 ++ b0)) rest ∧
    decode c (0x0F#8 :: 0x84#8 :: b0 :: b1 :: b2 :: b3 :: rest) =
      .ok (.jeRel32 [] (b3 ++ b2 ++ b1 ++ b0)) rest ∧
    decode c (0x0F#8 :: 0x85#8 :: b0 :: b1 :: b2 :: b3 :: rest) =
      .ok (.jneRel32 [] (b3 ++ b2 ++ b1 ++ b0)) rest ∧
    decode c (0x0F#8 :: 0x86#8 :: b0 :: b1 :: b2 :: b3 :: rest) =
      .ok (.jbeRel32 [] (b3 ++ b2 ++ b1 ++ b0)) rest ∧
    decode c (0x0F#8 :: 0x87#8 :: b0 :: b1 :: b2 :: b3 :: rest) =
      .ok (.jaRel32 [] (b3 ++ b2 ++ b1 ++ b0)) rest ∧
    decode c (0x0F#8 :: 0x88#8 :: b0 :: b1 :: b2 :: b3 :: rest) =
      .ok (.jsRel32 [] (b3 ++ b2 ++ b1 ++ b0)) rest ∧
    decode c (0x0F#8 :: 0x89#8 :: b0 :: b1 :: b2 :: b3 :: rest) =
      .ok (.jnsRel32 [] (b3 ++ b2 ++ b1 ++ b0)) rest ∧
    decode c (0x0F#8 :: 0x8A#8 :: b0 :: b1 :: b2 :: b3 :: rest) =
      .ok (.jpRel32 [] (b3 ++ b2 ++ b1 ++ b0)) rest ∧
    decode c (0x0F#8 :: 0x8B#8 :: b0 :: b1 :: b2 :: b3 :: rest) =
      .ok (.jnpRel32 [] (b3 ++ b2 ++ b1 ++ b0)) rest ∧
    decode c (0x0F#8 :: 0x8C#8 :: b0 :: b1 :: b2 :: b3 :: rest) =
      .ok (.jlRel32 [] (b3 ++ b2 ++ b1 ++ b0)) rest ∧
    decode c (0x0F#8 :: 0x8D#8 :: b0 :: b1 :: b2 :: b3 :: rest) =
      .ok (.jgeRel32 [] (b3 ++ b2 ++ b1 ++ b0)) rest ∧
    decode c (0x0F#8 :: 0x8E#8 :: b0 :: b1 :: b2 :: b3 :: rest) =
      .ok (.jleRel32 [] (b3 ++ b2 ++ b1 ++ b0)) rest ∧
    decode c (0x0F#8 :: 0x8F#8 :: b0 :: b1 :: b2 :: b3 :: rest) =
      .ok (.jgRel32 [] (b3 ++ b2 ++ b1 ++ b0)) rest

/-- For every configuration, every well-formed instruction with every admitted sequence of leading bytes and every
offset, and whatever bytes follow, the decoder reads the encoding as the instruction with the canonical mnemonic of
its opcode and leaves the bytes that follow; the canonical mnemonic has the same operation and leading bytes, and an
instruction whose mnemonic is the first of its opcode is read as itself. The choices of the spec and of the model
that it rests on are in notes/assumptions, entries 10, 12. Derived from 30_encoding.md sections 1 to 5 and 7 (R43 to
R53, R56, R61). -/
def Obligations.DecodeOfEncode : Prop :=
  (∀ (c : Config) (i : Instr) (rest : List Byte), i.wf c = true →
    decode c (encode i ++ rest) = .ok i.canonical rest) ∧
  (∀ i : Instr, opOf i.canonical = opOf i ∧ prefixesOf i.canonical = prefixesOf i) ∧
  (∀ (op : Op) (p : Prefixes), (op.toInstr p).canonical = op.toInstr p)

/-- Whenever the decoder reads an instruction from a list of bytes, that instruction is well-formed under the
configuration, has the canonical mnemonic of its opcode, and its encoding followed by the bytes left over is the
list it was read from: no byte and no bit is dropped. The choices of the spec and of the model that it rests on are
in notes/assumptions, entries 10, 12. Derived from 30_encoding.md section 4 and section 6 (R56, R59). -/
def Obligations.EncodeOfDecode : Prop :=
  ∀ (c : Config) (bs : List Byte) (i : Instr) (rest : List Byte), decode c bs = .ok i rest →
    i.wf c = true ∧ i.canonical = i ∧ encode i ++ rest = bs

/-- The decoder consumes the leading bytes, one opcode byte (two for a near jump) and the offset bytes of the form;
without leading bytes 2 (short, count), 4 (rel16) or 6 (rel32); never less than 2 nor more than 9, hence never the
15 bytes of the architecture's limit. The choices of the spec and of the model that it rests on are in
notes/assumptions, entry 10. Derived from 30_encoding.md section 3 (R55). -/
def Obligations.DecodedLength : Prop :=
  ∀ (c : Config) (bs : List Byte) (i : Instr) (rest : List Byte), decode c bs = .ok i rest →
    bs.length = lengthOf (prefixesOf i) (opOf i) + rest.length ∧
    2 ≤ lengthOf (prefixesOf i) (opOf i) ∧ lengthOf (prefixesOf i) (opOf i) ≤ 9 ∧ (prefixesOf i).length ≤ 3 ∧
    lengthOf (prefixesOf i) (opOf i) = (prefixesOf i).length +
      (match opOf i with
       | .short _ _ => 1 + 1
       | .count _ _ => 1 + 1
       | .near16 _ _ => 2 + 2
       | .near32 _ _ => 2 + 4)

/-- Behind leading bytes 66H, 67H, F0H in any order, none twice, a second occurrence of one of them is refused as
DuplicatePrefix, whatever follows. The choices of the spec and of the model that it rests on are in
notes/assumptions, entries 10, 13. Derived from 30_encoding.md section 3 (R50) and section 4 (R56). -/
def Obligations.RepeatedLeadingByteRefused : Prop :=
  ∀ (c : Config) (p : Prefixes) (q : Prefix) (rest : List Byte), p.Nodup → q ∈ p →
    decode c (p.map prefixByte ++ prefixByte q :: rest) = .refused .duplicatePrefix

/-- Behind any leading bytes, none twice: a byte other than 66H, 67H, F0H, 70H to 7FH, E3H and 0FH is refused as
OpcodeOutOfScope; so is 0FH followed by a byte outside 80H to 8FH. In particular the segment-override bytes, F2H,
F3H and 40H to 4FH are. The choices of the spec and of the model that it rests on are in notes/assumptions, entries
10, 13. Derived from 30_encoding.md sections 3, 4 and 6 (R50, R56, R58 (f)). -/
def Obligations.OtherBytesRefused : Prop :=
  (∀ (c : Config) (p : Prefixes) (b : Byte) (rest : List Byte), p.Nodup →
    b.toNat ≠ 0x66 → b.toNat ≠ 0x67 → b.toNat ≠ 0xF0 → ¬ (0x70 ≤ b.toNat ∧ b.toNat ≤ 0x7F) → b.toNat ≠ 0xE3 →
    b.toNat ≠ 0x0F → decode c (p.map prefixByte ++ b :: rest) = .refused .opcodeOutOfScope) ∧
  (∀ (c : Config) (p : Prefixes) (b : Byte) (rest : List Byte), p.Nodup → ¬ (0x80 ≤ b.toNat ∧ b.toNat ≤ 0x8F) →
    decode c (p.map prefixByte ++ 0x0F#8 :: b :: rest) = .refused .opcodeOutOfScope)

/-- Behind any leading bytes, none twice, 0FH 8xH is read with two offset bytes outside 64-bit mode under operand size
16, with four outside 64-bit mode under operand size 32 and in 64-bit mode without 66H, and is refused as
NearJccWith66HIn64BitMode in 64-bit mode with 66H, whatever follows. In 64-bit mode a short or count-register jump
decodes with 66H as without, and the operand size stays 64. The choices of the spec and of the model that it rests
on are in notes/assumptions, entries 10, 13. Derived from 30_encoding.md section 3 (R53); 92_eei_decisions.md D9. -/
def Obligations.NearFormByOperandSize : Prop :=
  (∀ (c : Config) (p : Prefixes) (cc : Cond) (b0 b1 : Byte) (rest : List Byte), p.Nodup → c.mode ≠ .long64 →
    operandSize c p = .bits16 →
    decode c (p.map prefixByte ++ 0x0F#8 :: nearOpcode cc :: b0 :: b1 :: rest) = .ok (near16Instr cc p (b1 ++ b0)) rest) ∧
  (∀ (c : Config) (p : Prefixes) (cc : Cond) (b0 b1 b2 b3 : Byte) (rest : List Byte), p.Nodup →
    (c.mode ≠ .long64 ∧ operandSize c p = .bits32 ∨ c.mode = .long64 ∧ Prefix.opSize ∉ p) →
    decode c (p.map prefixByte ++ 0x0F#8 :: nearOpcode cc :: b0 :: b1 :: b2 :: b3 :: rest) =
      .ok (near32Instr cc p (b3 ++ b2 ++ b1 ++ b0)) rest) ∧
  (∀ (c : Config) (p : Prefixes) (cc : Cond) (rest : List Byte), p.Nodup → c.mode = .long64 → Prefix.opSize ∈ p →
    decode c (p.map prefixByte ++ 0x0F#8 :: nearOpcode cc :: rest) = .refused .nearJccWith66HIn64BitMode) ∧
  (∀ (c : Config) (p : Prefixes) (cc : Cond) (r : Byte) (rest : List Byte), p.Nodup → c.mode = .long64 →
    operandSize c p = .bits64 ∧
    decode c (p.map prefixByte ++ shortOpcode cc :: r :: rest) = .ok (shortInstr cc p r) rest ∧
    decode c (p.map prefixByte ++ 0xE3#8 :: r :: rest) = .ok (countInstr (addressSize c p) p r) rest)

/-- The operand size is 64 in 64-bit mode with or without 66H; elsewhere it is DEF_OPSIZE without 66H, and with 66H 16
if DEF_OPSIZE is 32, else 32. The choices of the spec and of the model that it rests on are in notes/assumptions,
entry 10. Derived from 30_encoding.md section 3 (R51). -/
def Obligations.OperandSizeAttribute : Prop :=
  ∀ (c : Config) (p : Prefixes),
    (c.mode = .long64 → operandSize c p = .bits64) ∧
    (c.mode ≠ .long64 → Prefix.opSize ∉ p → c.defOpSize = .bits16 → operandSize c p = .bits16) ∧
    (c.mode ≠ .long64 → Prefix.opSize ∉ p → c.defOpSize = .bits32 → operandSize c p = .bits32) ∧
    (c.mode ≠ .long64 → Prefix.opSize ∈ p → c.defOpSize = .bits32 → operandSize c p = .bits16) ∧
    (c.mode ≠ .long64 → Prefix.opSize ∈ p → c.defOpSize = .bits16 → operandSize c p = .bits32)

/-- The address size is 64 in 64-bit mode without 67H and 32 there with it; elsewhere it is DEF_ADDRSIZE without 67H,
and with 67H 16 if DEF_ADDRSIZE is 32, else 32. So 16 is unreachable in 64-bit mode, 64 elsewhere, and 32 is
reachable under every configuration. The choices of the spec and of the model that it rests on are in
notes/assumptions, entry 10. Derived from 30_encoding.md section 3 (R52). -/
def Obligations.AddressSizeAttribute : Prop :=
  ∀ c : Config,
    (∀ p : Prefixes,
      (c.mode = .long64 → Prefix.addrSize ∉ p → addressSize c p = .bits64) ∧
      (c.mode = .long64 → Prefix.addrSize ∈ p → addressSize c p = .bits32) ∧
      (c.mode ≠ .long64 → Prefix.addrSize ∉ p → c.defAddrSize = .bits16 → addressSize c p = .bits16) ∧
      (c.mode ≠ .long64 → Prefix.addrSize ∉ p → c.defAddrSize = .bits32 → addressSize c p = .bits32) ∧
      (c.mode ≠ .long64 → Prefix.addrSize ∈ p → c.defAddrSize = .bits32 → addressSize c p = .bits16) ∧
      (c.mode ≠ .long64 → Prefix.addrSize ∈ p → c.defAddrSize = .bits16 → addressSize c p = .bits32) ∧
      (c.mode = .long64 → addressSize c p ≠ .bits16) ∧ (c.mode ≠ .long64 → addressSize c p ≠ .bits64)) ∧
    (addressSize c [] = .bits32 ∨ addressSize c [.addrSize] = .bits32)

/-- What is decoded in 64-bit mode is never JCXZ nor a cw form, and JECXZ only with a 67H byte; outside it never JRCXZ.
Conversely every other form is encodable in the mode: in 64-bit mode every short jump, JECXZ, JRCXZ and every cd
form; outside it every short jump, JCXZ, JECXZ, every cw form and every cd form. The choices of the spec and of the
model that it rests on are in notes/assumptions, entry 10. Derived from 30_encoding.md section 3 (R54). -/
def Obligations.FormsOfEachMode : Prop :=
  (∀ (c : Config) (bs : List Byte) (i : Instr) (rest : List Byte), decode c bs = .ok i rest →
    (∀ r, opOf i = .count .bits16 r → c.mode ≠ .long64) ∧
    (∀ r, opOf i = .count .bits32 r → c.mode = .long64 → Prefix.addrSize ∈ prefixesOf i) ∧
    (∀ r, opOf i = .count .bits64 r → c.mode = .long64) ∧
    (∀ cc r, opOf i = .near16 cc r → c.mode ≠ .long64)) ∧
  (∀ (c : Config) (cc : Cond) (r8 : BitVec 8) (r16 : BitVec 16) (r32 : BitVec 32),
    (∃ p, encodable c p (.short cc r8) = true) ∧ (∃ p, encodable c p (.near32 cc r32) = true) ∧
    (∃ p, encodable c p (.count .bits32 r8) = true) ∧
    (c.mode = .long64 → ∃ p, encodable c p (.count .bits64 r8) = true) ∧
    (c.mode ≠ .long64 → ∃ p, encodable c p (.count .bits16 r8) = true) ∧
    (c.mode ≠ .long64 → ∃ p, encodable c p (.near16 cc r16) = true))

/-- Each of the sixteen conditions holds exactly when its flag formula does, in every form of jump; for every even
condition number the condition of the next number is its negation. No other flag and no other state is read. Rule
R63. -/
def Obligations.FlagConditions : Prop :=
  (∀ s : State,
    (condHolds .o s = true ↔ s.OF = true) ∧
    (condHolds .no s = true ↔ s.OF = false) ∧
    (condHolds .b s = true ↔ s.CF = true) ∧
    (condHolds .ae s = true ↔ s.CF = false) ∧
    (condHolds .e s = true ↔ s.ZF = true) ∧
    (condHolds .ne s = true ↔ s.ZF = false) ∧
    (condHolds .be s = true ↔ (s.CF = true ∨ s.ZF = true)) ∧
    (condHolds .a s = true ↔ (s.CF = false ∧ s.ZF = false)) ∧
    (condHolds .s s = true ↔ s.SF = true) ∧
    (condHolds .ns s = true ↔ s.SF = false) ∧
    (condHolds .p s = true ↔ s.PF = true) ∧
    (condHolds .np s = true ↔ s.PF = false) ∧
    (condHolds .l s = true ↔ s.SF ≠ s.OF) ∧
    (condHolds .ge s = true ↔ s.SF = s.OF) ∧
    (condHolds .le s = true ↔ (s.ZF = true ∨ s.SF ≠ s.OF)) ∧
    (condHolds .g s = true ↔ (s.ZF = false ∧ s.SF = s.OF))) ∧
  (∀ (cc : Cond) (s : State), (Cond.nibble cc).toNat % 2 = 0 →
    condHolds (Cond.ofNibble (Cond.nibble cc + 1)) s = !condHolds cc s) ∧
  (∀ (cc : Cond) (s : State) (r8 : BitVec 8) (r16 : BitVec 16) (r32 : BitVec 32),
    taken (.short cc r8) s = condHolds cc s ∧ taken (.near16 cc r16) s = condHolds cc s ∧
    taken (.near32 cc r32) s = condHolds cc s)

/-- The test of JCXZ holds exactly when RCX[15:0] is 0, of JECXZ when RCX[31:0] is 0, of JRCXZ when RCX is 0; the higher
bits do not matter, and with RCX = 0000000100000000H JECXZ and JCXZ are taken and JRCXZ is not. The choices of the
spec and of the model that it rests on are in notes/assumptions, entry 10. Derived from 40_jcc_common.md section 1
(R64); 10_state.md section 3 (R17). -/
def Obligations.CountConditions : Prop :=
  (∀ (s : State) (r : BitVec 8),
    (taken (.count .bits16 r) s = true ↔ s.RCX.toNat % 2 ^ 16 = 0) ∧
    (taken (.count .bits32 r) s = true ↔ s.RCX.toNat % 2 ^ 32 = 0) ∧
    (taken (.count .bits64 r) s = true ↔ s.RCX.toNat = 0)) ∧
  (∀ (s : State) (r : BitVec 8), s.RCX = 0x0000000100000000#64 →
    taken (.count .bits32 r) s = true ∧ taken (.count .bits16 r) s = true ∧ taken (.count .bits64 r) s = false)

/-- JO jumps exactly when OF = 1, JNO exactly when OF = 0, each in the rel8, rel16 and rel32 form, for every state and
all leading bytes: not taken, only ip changes, to the following instruction; taken with a target in bounds, only ip
changes, to the target; taken with a target out of bounds, #GP or #GP(0) by mode; with LOCK, #UD; where no byte
string spells the form, refused by name. The choices of the spec and of the model that it rests on are in
notes/assumptions, entries 4, 10, 11. Derived from 41_jcc_rel8.md, sections 70H and 71H; 43_jcc_near.md, sections 0F
80 and 0F 81 (cw and cd); 40_jcc_common.md sections 1 and 2. -/
def Obligations.JumpsOnOverflow : Prop :=
  ∀ (p : Prefixes) (r8 : BitVec 8) (r16 : BitVec 16) (r32 : BitVec 32),
    JumpsWhen (.joRel8 p r8) (fun s => s.OF = true) ∧
    JumpsWhen (.jnoRel8 p r8) (fun s => s.OF = false) ∧
    JumpsWhen (.joRel16 p r16) (fun s => s.OF = true) ∧
    JumpsWhen (.jnoRel16 p r16) (fun s => s.OF = false) ∧
    JumpsWhen (.joRel32 p r32) (fun s => s.OF = true) ∧
    JumpsWhen (.jnoRel32 p r32) (fun s => s.OF = false)

/-- JB, JC, JNAE jump exactly when CF = 1, JAE, JNB, JNC exactly when CF = 0, each in the rel8, rel16 and rel32 form,
for every state and all leading bytes: not taken, only ip changes, to the following instruction; taken with a target
in bounds, only ip changes, to the target; taken with a target out of bounds, #GP or #GP(0) by mode; with LOCK, #UD;
where no byte string spells the form, refused by name. The choices of the spec and of the model that it rests on are
in notes/assumptions, entries 4, 10, 11. Derived from 41_jcc_rel8.md, sections 72H and 73H; 43_jcc_near.md, sections
0F 82 and 0F 83 (cw and cd); 40_jcc_common.md sections 1 and 2. -/
def Obligations.JumpsOnCarry : Prop :=
  ∀ (p : Prefixes) (r8 : BitVec 8) (r16 : BitVec 16) (r32 : BitVec 32),
    JumpsWhen (.jbRel8 p r8) (fun s => s.CF = true) ∧
    JumpsWhen (.jcRel8 p r8) (fun s => s.CF = true) ∧
    JumpsWhen (.jnaeRel8 p r8) (fun s => s.CF = true) ∧
    JumpsWhen (.jaeRel8 p r8) (fun s => s.CF = false) ∧
    JumpsWhen (.jnbRel8 p r8) (fun s => s.CF = false) ∧
    JumpsWhen (.jncRel8 p r8) (fun s => s.CF = false) ∧
    JumpsWhen (.jbRel16 p r16) (fun s => s.CF = true) ∧
    JumpsWhen (.jcRel16 p r16) (fun s => s.CF = true) ∧
    JumpsWhen (.jnaeRel16 p r16) (fun s => s.CF = true) ∧
    JumpsWhen (.jaeRel16 p r16) (fun s => s.CF = false) ∧
    JumpsWhen (.jnbRel16 p r16) (fun s => s.CF = false) ∧
    JumpsWhen (.jncRel16 p r16) (fun s => s.CF = false) ∧
    JumpsWhen (.jbRel32 p r32) (fun s => s.CF = true) ∧
    JumpsWhen (.jcRel32 p r32) (fun s => s.CF = true) ∧
    JumpsWhen (.jnaeRel32 p r32) (fun s => s.CF = true) ∧
    JumpsWhen (.jaeRel32 p r32) (fun s => s.CF = false) ∧
    JumpsWhen (.jnbRel32 p r32) (fun s => s.CF = false) ∧
    JumpsWhen (.jncRel32 p r32) (fun s => s.CF = false)

/-- JE, JZ jump exactly when ZF = 1, JNE, JNZ exactly when ZF = 0, each in the rel8, rel16 and rel32 form, for every
state and all leading bytes: not taken, only ip changes, to the following instruction; taken with a target in
bounds, only ip changes, to the target; taken with a target out of bounds, #GP or #GP(0) by mode; with LOCK, #UD;
where no byte string spells the form, refused by name. The choices of the spec and of the model that it rests on are
in notes/assumptions, entries 4, 10, 11. Derived from 41_jcc_rel8.md, sections 74H and 75H; 43_jcc_near.md, sections
0F 84 and 0F 85 (cw and cd); 40_jcc_common.md sections 1 and 2. -/
def Obligations.JumpsOnZero : Prop :=
  ∀ (p : Prefixes) (r8 : BitVec 8) (r16 : BitVec 16) (r32 : BitVec 32),
    JumpsWhen (.jeRel8 p r8) (fun s => s.ZF = true) ∧
    JumpsWhen (.jzRel8 p r8) (fun s => s.ZF = true) ∧
    JumpsWhen (.jneRel8 p r8) (fun s => s.ZF = false) ∧
    JumpsWhen (.jnzRel8 p r8) (fun s => s.ZF = false) ∧
    JumpsWhen (.jeRel16 p r16) (fun s => s.ZF = true) ∧
    JumpsWhen (.jzRel16 p r16) (fun s => s.ZF = true) ∧
    JumpsWhen (.jneRel16 p r16) (fun s => s.ZF = false) ∧
    JumpsWhen (.jnzRel16 p r16) (fun s => s.ZF = false) ∧
    JumpsWhen (.jeRel32 p r32) (fun s => s.ZF = true) ∧
    JumpsWhen (.jzRel32 p r32) (fun s => s.ZF = true) ∧
    JumpsWhen (.jneRel32 p r32) (fun s => s.ZF = false) ∧
    JumpsWhen (.jnzRel32 p r32) (fun s => s.ZF = false)

/-- JBE, JNA jump exactly when CF = 1 or ZF = 1, JA, JNBE exactly when CF = 0 and ZF = 0, each in the rel8, rel16 and
rel32 form, for every state and all leading bytes: not taken, only ip changes, to the following instruction; taken
with a target in bounds, only ip changes, to the target; taken with a target out of bounds, #GP or #GP(0) by mode;
with LOCK, #UD; where no byte string spells the form, refused by name. The choices of the spec and of the model that
it rests on are in notes/assumptions, entries 4, 10, 11. Derived from 41_jcc_rel8.md, sections 76H and 77H;
43_jcc_near.md, sections 0F 86 and 0F 87 (cw and cd); 40_jcc_common.md sections 1 and 2. -/
def Obligations.JumpsOnCarryOrZero : Prop :=
  ∀ (p : Prefixes) (r8 : BitVec 8) (r16 : BitVec 16) (r32 : BitVec 32),
    JumpsWhen (.jbeRel8 p r8) (fun s => s.CF = true ∨ s.ZF = true) ∧
    JumpsWhen (.jnaRel8 p r8) (fun s => s.CF = true ∨ s.ZF = true) ∧
    JumpsWhen (.jaRel8 p r8) (fun s => s.CF = false ∧ s.ZF = false) ∧
    JumpsWhen (.jnbeRel8 p r8) (fun s => s.CF = false ∧ s.ZF = false) ∧
    JumpsWhen (.jbeRel16 p r16) (fun s => s.CF = true ∨ s.ZF = true) ∧
    JumpsWhen (.jnaRel16 p r16) (fun s => s.CF = true ∨ s.ZF = true) ∧
    JumpsWhen (.jaRel16 p r16) (fun s => s.CF = false ∧ s.ZF = false) ∧
    JumpsWhen (.jnbeRel16 p r16) (fun s => s.CF = false ∧ s.ZF = false) ∧
    JumpsWhen (.jbeRel32 p r32) (fun s => s.CF = true ∨ s.ZF = true) ∧
    JumpsWhen (.jnaRel32 p r32) (fun s => s.CF = true ∨ s.ZF = true) ∧
    JumpsWhen (.jaRel32 p r32) (fun s => s.CF = false ∧ s.ZF = false) ∧
    JumpsWhen (.jnbeRel32 p r32) (fun s => s.CF = false ∧ s.ZF = false)

/-- JS jumps exactly when SF = 1, JNS exactly when SF = 0, each in the rel8, rel16 and rel32 form, for every state and
all leading bytes: not taken, only ip changes, to the following instruction; taken with a target in bounds, only ip
changes, to the target; taken with a target out of bounds, #GP or #GP(0) by mode; with LOCK, #UD; where no byte
string spells the form, refused by name. The choices of the spec and of the model that it rests on are in
notes/assumptions, entries 4, 10, 11. Derived from 41_jcc_rel8.md, sections 78H and 79H; 43_jcc_near.md, sections 0F
88 and 0F 89 (cw and cd); 40_jcc_common.md sections 1 and 2. -/
def Obligations.JumpsOnSign : Prop :=
  ∀ (p : Prefixes) (r8 : BitVec 8) (r16 : BitVec 16) (r32 : BitVec 32),
    JumpsWhen (.jsRel8 p r8) (fun s => s.SF = true) ∧
    JumpsWhen (.jnsRel8 p r8) (fun s => s.SF = false) ∧
    JumpsWhen (.jsRel16 p r16) (fun s => s.SF = true) ∧
    JumpsWhen (.jnsRel16 p r16) (fun s => s.SF = false) ∧
    JumpsWhen (.jsRel32 p r32) (fun s => s.SF = true) ∧
    JumpsWhen (.jnsRel32 p r32) (fun s => s.SF = false)

/-- JP, JPE jump exactly when PF = 1, JNP, JPO exactly when PF = 0, each in the rel8, rel16 and rel32 form, for every
state and all leading bytes: not taken, only ip changes, to the following instruction; taken with a target in
bounds, only ip changes, to the target; taken with a target out of bounds, #GP or #GP(0) by mode; with LOCK, #UD;
where no byte string spells the form, refused by name. The choices of the spec and of the model that it rests on are
in notes/assumptions, entries 4, 10, 11. Derived from 41_jcc_rel8.md, sections 7AH and 7BH; 43_jcc_near.md, sections
0F 8A and 0F 8B (cw and cd); 40_jcc_common.md sections 1 and 2. -/
def Obligations.JumpsOnParity : Prop :=
  ∀ (p : Prefixes) (r8 : BitVec 8) (r16 : BitVec 16) (r32 : BitVec 32),
    JumpsWhen (.jpRel8 p r8) (fun s => s.PF = true) ∧
    JumpsWhen (.jpeRel8 p r8) (fun s => s.PF = true) ∧
    JumpsWhen (.jnpRel8 p r8) (fun s => s.PF = false) ∧
    JumpsWhen (.jpoRel8 p r8) (fun s => s.PF = false) ∧
    JumpsWhen (.jpRel16 p r16) (fun s => s.PF = true) ∧
    JumpsWhen (.jpeRel16 p r16) (fun s => s.PF = true) ∧
    JumpsWhen (.jnpRel16 p r16) (fun s => s.PF = false) ∧
    JumpsWhen (.jpoRel16 p r16) (fun s => s.PF = false) ∧
    JumpsWhen (.jpRel32 p r32) (fun s => s.PF = true) ∧
    JumpsWhen (.jpeRel32 p r32) (fun s => s.PF = true) ∧
    JumpsWhen (.jnpRel32 p r32) (fun s => s.PF = false) ∧
    JumpsWhen (.jpoRel32 p r32) (fun s => s.PF = false)

/-- JL, JNGE jump exactly when SF ≠ OF, JGE, JNL exactly when SF = OF, each in the rel8, rel16 and rel32 form, for every
state and all leading bytes: not taken, only ip changes, to the following instruction; taken with a target in
bounds, only ip changes, to the target; taken with a target out of bounds, #GP or #GP(0) by mode; with LOCK, #UD;
where no byte string spells the form, refused by name. The choices of the spec and of the model that it rests on are
in notes/assumptions, entries 4, 10, 11. Derived from 41_jcc_rel8.md, sections 7CH and 7DH; 43_jcc_near.md, sections
0F 8C and 0F 8D (cw and cd); 40_jcc_common.md sections 1 and 2. -/
def Obligations.JumpsOnLess : Prop :=
  ∀ (p : Prefixes) (r8 : BitVec 8) (r16 : BitVec 16) (r32 : BitVec 32),
    JumpsWhen (.jlRel8 p r8) (fun s => s.SF ≠ s.OF) ∧
    JumpsWhen (.jngeRel8 p r8) (fun s => s.SF ≠ s.OF) ∧
    JumpsWhen (.jgeRel8 p r8) (fun s => s.SF = s.OF) ∧
    JumpsWhen (.jnlRel8 p r8) (fun s => s.SF = s.OF) ∧
    JumpsWhen (.jlRel16 p r16) (fun s => s.SF ≠ s.OF) ∧
    JumpsWhen (.jngeRel16 p r16) (fun s => s.SF ≠ s.OF) ∧
    JumpsWhen (.jgeRel16 p r16) (fun s => s.SF = s.OF) ∧
    JumpsWhen (.jnlRel16 p r16) (fun s => s.SF = s.OF) ∧
    JumpsWhen (.jlRel32 p r32) (fun s => s.SF ≠ s.OF) ∧
    JumpsWhen (.jngeRel32 p r32) (fun s => s.SF ≠ s.OF) ∧
    JumpsWhen (.jgeRel32 p r32) (fun s => s.SF = s.OF) ∧
    JumpsWhen (.jnlRel32 p r32) (fun s => s.SF = s.OF)

/-- JLE, JNG jump exactly when ZF = 1 or SF ≠ OF, JG, JNLE exactly when ZF = 0 and SF = OF, each in the rel8, rel16 and
rel32 form, for every state and all leading bytes: not taken, only ip changes, to the following instruction; taken
with a target in bounds, only ip changes, to the target; taken with a target out of bounds, #GP or #GP(0) by mode;
with LOCK, #UD; where no byte string spells the form, refused by name. The choices of the spec and of the model that
it rests on are in notes/assumptions, entries 4, 10, 11. Derived from 41_jcc_rel8.md, sections 7EH and 7FH;
43_jcc_near.md, sections 0F 8E and 0F 8F (cw and cd); 40_jcc_common.md sections 1 and 2. -/
def Obligations.JumpsOnLessOrZero : Prop :=
  ∀ (p : Prefixes) (r8 : BitVec 8) (r16 : BitVec 16) (r32 : BitVec 32),
    JumpsWhen (.jleRel8 p r8) (fun s => s.ZF = true ∨ s.SF ≠ s.OF) ∧
    JumpsWhen (.jngRel8 p r8) (fun s => s.ZF = true ∨ s.SF ≠ s.OF) ∧
    JumpsWhen (.jgRel8 p r8) (fun s => s.ZF = false ∧ s.SF = s.OF) ∧
    JumpsWhen (.jnleRel8 p r8) (fun s => s.ZF = false ∧ s.SF = s.OF) ∧
    JumpsWhen (.jleRel16 p r16) (fun s => s.ZF = true ∨ s.SF ≠ s.OF) ∧
    JumpsWhen (.jngRel16 p r16) (fun s => s.ZF = true ∨ s.SF ≠ s.OF) ∧
    JumpsWhen (.jgRel16 p r16) (fun s => s.ZF = false ∧ s.SF = s.OF) ∧
    JumpsWhen (.jnleRel16 p r16) (fun s => s.ZF = false ∧ s.SF = s.OF) ∧
    JumpsWhen (.jleRel32 p r32) (fun s => s.ZF = true ∨ s.SF ≠ s.OF) ∧
    JumpsWhen (.jngRel32 p r32) (fun s => s.ZF = true ∨ s.SF ≠ s.OF) ∧
    JumpsWhen (.jgRel32 p r32) (fun s => s.ZF = false ∧ s.SF = s.OF) ∧
    JumpsWhen (.jnleRel32 p r32) (fun s => s.ZF = false ∧ s.SF = s.OF)

/-- JCXZ jumps exactly when RCX[15:0] is 0, JECXZ when RCX[31:0] is 0, JRCXZ when RCX is 0, for every state and all
leading bytes: not taken, only ip changes, to the following instruction (the count register is not decremented);
taken with a target in bounds, only ip changes, to the target; taken out of bounds, #GP or #GP(0) by mode; with
LOCK, #UD; under another address size than its own, refused by name. The choices of the spec and of the model that
it rests on are in notes/assumptions, entries 4, 10, 11. Derived from 42_jcxz.md (R89 to R92); 40_jcc_common.md
sections 1 and 2. -/
def Obligations.JumpsOnCountRegister : Prop :=
  ∀ (p : Prefixes) (r : BitVec 8),
    JumpsWhen (.jcxz p r) (fun s => s.RCX.toNat % 2 ^ 16 = 0) ∧
    JumpsWhen (.jecxz p r) (fun s => s.RCX.toNat % 2 ^ 32 = 0) ∧
    JumpsWhen (.jrcxz p r) (fun s => s.RCX.toNat = 0)

/-- Every well-formed instruction without LOCK whose condition does not hold completes: only ip changes, to a + len
modulo 2^W, with no cut to 16 bits under operand size 16 and no check of the limit or of canonical form. The step at
bytes that are fetched and decode to it completes alike: it raises no exception, wherever the following instruction
stands. The choices of the spec and of the model that it rests on are in notes/assumptions, entries 10, 11. Derived
from 40_jcc_common.md section 2 (R66). -/
def Obligations.NotTakenFallsThrough : Prop :=
  ∀ (i : Instr) (s : State), i.wf s.config = true → Prefix.lock ∉ prefixesOf i → takenAt i s = false →
    ∀ next : Nat,
      next = (s.ip.toNat + lengthOf (prefixesOf i) (opOf i)) % 2 ^ (if s.config.mode = .long64 then 64 else 32) →
      exec i s = .next { s with ip := BitVec.ofNat 64 next } ∧
      (∀ bs rest, s.ip.toNat ∉ s.exits → fetchesBytes s s.ip bs → decode s.config bs = .ok i rest →
        step s = .next { s with ip := BitVec.ofNat 64 next })

/-- Outside 64-bit mode every well-formed instruction without LOCK whose condition holds forms t = (next + rel) mod
2^32, keeps the low 16 bits of it under operand size 16, and completes with ip = t, bits 63:32 zero, when t passes
the checks, else faults. With offset 0 the target (not cut) is the following instruction, with offset -len the
instruction itself. The choices of the spec and of the model that it rests on are in notes/assumptions, entries 10,
11. Derived from 40_jcc_common.md section 2 (R67, R69). -/
def Obligations.TakenOutside64BitMode : Prop :=
  ∀ (i : Instr) (s : State), s.config.mode ≠ .long64 → i.wf s.config = true → Prefix.lock ∉ prefixesOf i →
    takenAt i s = true →
    ∃ sum t : Nat,
      (sum : Int) = (((s.ip.toNat % 2 ^ 32 + lengthOf (prefixesOf i) (opOf i)) % 2 ^ 32 : Nat) + relInt i) % 2 ^ 32 ∧
      t = (if operandSize s.config (prefixesOf i) = .bits16 then sum % 2 ^ 16 else sum) ∧ t < 2 ^ 32 ∧
      (inBounds s.config t → exec i s = .next { s with ip := BitVec.ofNat 64 t }) ∧
      (¬ inBounds s.config t → exec i s = .fault (targetFault s.config s.ip)) ∧
      (relInt i = 0 → operandSize s.config (prefixesOf i) ≠ .bits16 → t = nextAt i s) ∧
      (relInt i = -(lengthOf (prefixesOf i) (opOf i) : Int) →
        (operandSize s.config (prefixesOf i) ≠ .bits16 ∨ s.ip.toNat % 2 ^ 32 < 2 ^ 16) → t = s.ip.toNat % 2 ^ 32)

/-- In 64-bit mode the operand size is 64 whatever leading bytes are present, and every well-formed instruction without
LOCK whose condition holds forms t = (next + rel) mod 2^64; if t is canonical it completes with only ip changed, to
t; else it raises #GP(0). The code-segment limit is not read: under any limit the outcome is the same. The choices
of the spec and of the model that it rests on are in notes/assumptions, entries 10, 11. Derived from
40_jcc_common.md section 2 (R68); 20_memory.md section 5 (R36). -/
def Obligations.TakenIn64BitMode : Prop :=
  ∀ (i : Instr) (s : State), s.config.mode = .long64 → i.wf s.config = true → Prefix.lock ∉ prefixesOf i →
    takenAt i s = true →
    operandSize s.config (prefixesOf i) = .bits64 ∧
    (∀ t : Offset, t = BitVec.ofInt 64 ((s.ip.toNat + lengthOf (prefixesOf i) (opOf i) : Nat) + relInt i) →
      (canonical s.config.vaBits t = true → exec i s = .next { s with ip := t }) ∧
      (canonical s.config.vaBits t = false → exec i s = .fault (.gp0 s.ip)) ∧
      (∀ limit : BitVec 32,
        exec i { s with config := { s.config with csLimit := limit } } =
          mapNext (fun u => { u with config := { s.config with csLimit := limit } }) (exec i s)))

/-- What is decoded as a cw form has operand size 16, so its target is at most FFFFH and is (next + rel16) mod 2^16;
what is decoded as a cd form outside 64-bit mode has operand size 32, and its target is (next + rel32) mod 2^32. The
choices of the spec and of the model that it rests on are in notes/assumptions, entry 10. Derived from
43_jcc_near.md (R93). -/
def Obligations.Rel16TargetsStayBelow64K : Prop :=
  ∀ (s : State) (bs : List Byte) (i : Instr) (rest : List Byte), decode s.config bs = .ok i rest →
    (∀ cc r, opOf i = .near16 cc r →
      targetAt i s ≤ 0xFFFF ∧ (targetAt i s : Int) = ((s.ip.toNat + lengthOf (prefixesOf i) (opOf i) : Nat) + r.toInt) % 2 ^ 16) ∧
    (∀ cc r, opOf i = .near32 cc r → s.config.mode ≠ .long64 →
      (targetAt i s : Int) = ((s.ip.toNat + lengthOf (prefixesOf i) (opOf i) + r.toNat : Nat) : Int) % 2 ^ 32)

/-- Outside 64-bit mode a 32-bit target passes exactly when it is at most CS_LIMIT, unsigned, CS_LIMIT itself included,
and in real-address and virtual-8086 mode also at most FFFFH; under operand size 16 the target of any jump is at
most FFFFH, so there the second bound cannot be exceeded. A taken jump to a target that does not pass raises the
general-protection exception of the mode, #GP above FFFFH even within CS_LIMIT. The choices of the spec and of the
model that it rests on are in notes/assumptions, entries 10, 11. Derived from 20_memory.md section 5 (R34, R35). -/
def Obligations.LimitAndSixtyFourKBounds : Prop :=
  (∀ (c : Config) (t : BitVec 32), (c.mode = .protectedMode ∨ c.mode = .compat) →
    (targetAllowed c (t.setWidth 64) = true ↔ t.toNat ≤ c.csLimit.toNat)) ∧
  (∀ (c : Config) (t : BitVec 32), (c.mode = .real ∨ c.mode = .v8086) →
    (targetAllowed c (t.setWidth 64) = true ↔ t.toNat ≤ c.csLimit.toNat ∧ t.toNat ≤ 0xFFFF)) ∧
  (∀ (c : Config) (p : Prefixes) (op : Op) (next : Offset), operandSize c p = .bits16 →
    (targetFrom c p op next).toNat ≤ 0xFFFF) ∧
  (∀ (c : Config), (c.mode = .protectedMode ∨ c.mode = .compat) → targetAllowed c (c.csLimit.setWidth 64) = true) ∧
  (∀ (i : Instr) (s : State), s.config.mode ≠ .long64 → i.wf s.config = true → Prefix.lock ∉ prefixesOf i →
    takenAt i s = true →
    (s.config.csLimit.toNat < targetAt i s → exec i s = .fault (targetFault s.config s.ip)) ∧
    ((s.config.mode = .real ∨ s.config.mode = .v8086) → 0xFFFF < targetAt i s → exec i s = .fault (.gp s.ip)))

/-- For 1 ≤ VA_BITS ≤ 64 an offset is canonical exactly when its bits 63 down to VA_BITS-1 are all equal, exactly when
it is the sign extension of its low VA_BITS bits; with 48 exactly when it lies in 0 to 00007FFFFFFFFFFFH or from
FFFF800000000000H up; with 64 always. In 64-bit mode a target passes exactly when it is canonical, whatever the
limit, and a taken jump to a target that is not raises #GP(0). The choices of the spec and of the model that it
rests on are in notes/assumptions, entries 10, 11. Derived from 20_memory.md section 5 (R36). -/
def Obligations.CanonicalForm : Prop :=
  (∀ (va : Nat) (t : Offset), 1 ≤ va → va ≤ 64 →
    (canonical va t = true ↔ ∀ j, va - 1 ≤ j → j ≤ 63 → t.getLsbD j = t.getLsbD 63) ∧
    (canonical va t = true ↔ t = (t.setWidth va).signExtend 64)) ∧
  (∀ t : Offset, canonical 48 t = true ↔ t.toNat ≤ 0x00007FFFFFFFFFFF ∨ 0xFFFF800000000000 ≤ t.toNat) ∧
  (∀ t : Offset, canonical 64 t = true) ∧
  (∀ (c : Config) (t : Offset), c.mode = .long64 → targetAllowed c t = canonical c.vaBits t) ∧
  (∀ (i : Instr) (s : State), s.config.mode = .long64 → i.wf s.config = true → Prefix.lock ∉ prefixesOf i →
    takenAt i s = true → canonical s.config.vaBits (BitVec.ofNat 64 (targetAt i s)) = false →
    exec i s = .fault (.gp0 s.ip))

/-- In protected and compatibility mode, a well-formed instruction without LOCK raises #GP(0), error code 0, carrying
the offset of the jump, exactly when its condition holds and its target, after the cut to 16 bits if any, is above
CS_LIMIT; it never raises anything else. The choices of the spec and of the model that it rests on are in
notes/assumptions, entries 10, 11. Derived from 60_exceptions.md section 1 (R127, R131). -/
def Obligations.GeneralProtectionInProtectedAndCompat : Prop :=
  ∀ (i : Instr) (s : State), (s.config.mode = .protectedMode ∨ s.config.mode = .compat) → i.wf s.config = true →
    Prefix.lock ∉ prefixesOf i →
    (exec i s = .fault (.gp0 s.ip) ↔ takenAt i s = true ∧ s.config.csLimit.toNat < targetAt i s) ∧
    (∀ f, exec i s = .fault f → f = .gp0 s.ip ∧ f.vector = .gp ∧ f.errorCode = some 0 ∧ f.offset = s.ip)

/-- In real-address and virtual-8086 mode, a well-formed instruction without LOCK raises #GP, with no error code,
exactly when its condition holds and its target is above CS_LIMIT or above FFFFH; it never raises anything else; a
target above FFFFH arises only with operand size 32, hence only in a cb, E3 or cd form. The choices of the spec and
of the model that it rests on are in notes/assumptions, entries 10, 11. Derived from 60_exceptions.md section 1
(R128, R131). -/
def Obligations.GeneralProtectionInRealAndV8086 : Prop :=
  ∀ (i : Instr) (s : State), (s.config.mode = .real ∨ s.config.mode = .v8086) → i.wf s.config = true →
    Prefix.lock ∉ prefixesOf i →
    (exec i s = .fault (.gp s.ip) ↔
      takenAt i s = true ∧ (s.config.csLimit.toNat < targetAt i s ∨ 0xFFFF < targetAt i s)) ∧
    (∀ f, exec i s = .fault f → f = .gp s.ip ∧ f.vector = .gp ∧ f.errorCode = none ∧ f.offset = s.ip) ∧
    (0xFFFF < targetAt i s → operandSize s.config (prefixesOf i) = .bits32 ∧ ∀ cc r, opOf i ≠ .near16 cc r)

/-- In 64-bit mode, a well-formed instruction without LOCK raises #GP(0), error code 0, exactly when its condition holds
and its target is not canonical; it never raises anything else, and no well-formed instruction there is JCXZ or a cw
form. The choices of the spec and of the model that it rests on are in notes/assumptions, entries 10, 11. Derived
from 60_exceptions.md section 1 (R129, R131). -/
def Obligations.GeneralProtectionIn64BitMode : Prop :=
  ∀ (i : Instr) (s : State), s.config.mode = .long64 → i.wf s.config = true → Prefix.lock ∉ prefixesOf i →
    (exec i s = .fault (.gp0 s.ip) ↔
      takenAt i s = true ∧ canonical s.config.vaBits (BitVec.ofNat 64 (targetAt i s)) = false) ∧
    (∀ f, exec i s = .fault f → f = .gp0 s.ip ∧ f.errorCode = some 0) ∧
    (∀ r, opOf i ≠ .count .bits16 r) ∧ (∀ cc r, opOf i ≠ .near16 cc r)

/-- A well-formed instruction with the LOCK byte among its leading bytes raises #UD, no error code, at its own offset,
whatever the mode, the flags, the count register, the offset and the target; and a step at bytes that decode to such
an instruction does so: it never jumps and never falls through. The choices of the spec and of the model that it
rests on are in notes/assumptions, entries 9, 10, 15. Derived from 60_exceptions.md section 1 (R130);
60_exceptions.md section 2 (R131); 92_eei_decisions.md D15. -/
def Obligations.LockRaisesInvalidOpcode : Prop :=
  (∀ (i : Instr) (s : State), i.wf s.config = true → Prefix.lock ∈ prefixesOf i → exec i s = .fault (.ud s.ip)) ∧
  (∀ (s : State) (bs : List Byte) (i : Instr) (rest : List Byte), s.ip.toNat ∉ s.exits → fetchesBytes s s.ip bs →
    decode s.config bs = .ok i rest → Prefix.lock ∈ prefixesOf i → step s = .fault (.ud s.ip)) ∧
  (∀ a : Offset, (Fault.ud a).vector = .ud ∧ (Fault.ud a).errorCode = none)

/-- An instruction that is not well-formed (JCXZ in 64-bit mode, JRCXZ outside it, a cw form in 64-bit mode, a form
under another size than its own, a leading byte twice) is refused as notEncodable: it takes no effect. The choices
of the spec and of the model that it rests on are in notes/assumptions, entry 4. Derived from 30_encoding.md
sections 3 and 6 (R54, R58 (b) and (c)); 93_implementation_defined.md U3 to U5. -/
def Obligations.UnspelledFormsRefused : Prop :=
  (∀ (i : Instr) (s : State), i.wf s.config = false → exec i s = .refused .notEncodable) ∧
  (∀ (c : Config) (p : Prefixes) (r : BitVec 8), c.mode = .long64 → Instr.wf c (.jcxz p r) = false) ∧
  (∀ (c : Config) (p : Prefixes) (r : BitVec 8), c.mode ≠ .long64 → Instr.wf c (.jrcxz p r) = false) ∧
  (∀ (c : Config) (p : Prefixes) (cc : Cond) (r : BitVec 16), c.mode = .long64 → (near16Instr cc p r).wf c = false)

/-- When an instruction executes, or the machine steps, to a next state, that state has the five flags, the count
register, the configuration, the exit set and every byte of the code image as before: every instruction of the
family, the E3H forms among them, writes ip only. Rule R70. -/
def Obligations.OnlyIpIsWritten : Prop :=
  (∀ (i : Instr) (s t : State), exec i s = .next t →
    t.CF = s.CF ∧ t.PF = s.PF ∧ t.ZF = s.ZF ∧ t.SF = s.SF ∧ t.OF = s.OF ∧ t.RCX = s.RCX ∧ t.config = s.config ∧
    t.exits = s.exits ∧ ∀ a : Nat, t.code.read a = s.code.read a) ∧
  (∀ s t : State, step s = .next t → t = { s with ip := t.ip })

/-- Every instruction encodes to the same bytes, is well-formed under the same configurations and executes to the same
outcome as the one with the canonical mnemonic of its opcode; among the canonical mnemonics are the first the table
lists: for 77H, JNBE is JA. The choices of the spec and of the model that it rests on are in notes/assumptions,
entry 12. Derived from 30_encoding.md section 7 (R61). -/
def Obligations.AliasesAreOneInstruction : Prop :=
  (∀ (i : Instr) (s : State), exec i s = exec i.canonical s) ∧
  (∀ i : Instr, encode i = encode i.canonical) ∧ (∀ (i : Instr) (c : Config), i.wf c = i.canonical.wf c) ∧
  (∀ p r, Instr.canonical (.jnbeRel8 p r) = .jaRel8 p r) ∧ (∀ p r, Instr.canonical (.jcRel16 p r) = .jbRel16 p r) ∧
  (∀ p r, Instr.canonical (.jnaeRel32 p r) = .jbRel32 p r) ∧ (∀ p r, Instr.canonical (.jzRel8 p r) = .jeRel8 p r)

/-- For every condition and the one whose number differs from it in the lowest bit, in each form, with the same leading
bytes and offset: of the two jumps without LOCK, in any state where they are encodable, one is not taken and
completes at the following instruction, and the other is taken. The choices of the spec and of the model that it
rests on are in notes/assumptions, entry 11. Derived from 30_encoding.md section 7 (R62); 40_jcc_common.md section
1. -/
def Obligations.OppositeConditionsPartition : Prop :=
  ∀ (cc : Cond) (p : Prefixes) (r8 : BitVec 8) (r16 : BitVec 16) (r32 : BitVec 32) (s : State), Prefix.lock ∉ p →
    let co := Cond.ofNibble (Cond.nibble cc ^^^ 1#4)
    ∀ i j : Instr,
      (i = shortInstr cc p r8 ∧ j = shortInstr co p r8 ∨ i = near16Instr cc p r16 ∧ j = near16Instr co p r16 ∨
        i = near32Instr cc p r32 ∧ j = near32Instr co p r32) →
      i.wf s.config = true →
      (takenAt i s = true ∧ exec j s = .next { s with ip := BitVec.ofNat 64 (nextAt j s) }) ∨
      (takenAt j s = true ∧ exec i s = .next { s with ip := BitVec.ofNat 64 (nextAt i s) })

/-- A flag-conditional jump with a further 67H byte, one byte further back, completes in the same state and is refused
alike; it raises #UD exactly when the shorter one does, and the general-protection exception of the mode exactly
when the shorter one does, each carrying its own offset: the address size plays no part in it. The choices of the
spec and of the model that it rests on are in notes/assumptions, entries 9, 10. Derived from 30_encoding.md section
3 (R52); 41_jcc_rel8.md, head. -/
def Obligations.AddressOverrideOnlyLengthens : Prop :=
  ∀ (cc : Cond) (p : Prefixes) (r8 : BitVec 8) (r16 : BitVec 16) (r32 : BitVec 32) (s : State) (a : Offset),
    Prefix.addrSize ∉ p → a = addOffset s.config s.ip (BitVec.ofInt 64 (-1)) →
    ∀ i j : Instr,
      (i = shortInstr cc p r8 ∧ j = shortInstr cc (.addrSize :: p) r8 ∨
        i = near16Instr cc p r16 ∧ j = near16Instr cc (.addrSize :: p) r16 ∨
        i = near32Instr cc p r32 ∧ j = near32Instr cc (.addrSize :: p) r32) →
      (∀ t, exec i s = .next t ↔ exec j { s with ip := a } = .next t) ∧
      (∀ r, exec i s = .refused r ↔ exec j { s with ip := a } = .refused r) ∧
      (exec i s = .fault (.ud s.ip) ↔ exec j { s with ip := a } = .fault (.ud a)) ∧
      (exec i s = .fault (targetFault s.config s.ip) ↔
        exec j { s with ip := a } = .fault (targetFault s.config a))

/-- Fetching at an offset faults, outside 64-bit mode when the offset is above CS_LIMIT (#GP(0) in protected and
compatibility mode, #GP in real-address and virtual-8086 mode) and in 64-bit mode when it is not canonical (#GP(0)),
at the instruction's own offset; else it is refused where the code image has no byte; else it gives the byte. The
choices of the spec and of the model that it rests on are in notes/assumptions, entries 6, 11. Derived from
20_memory.md section 1 (R29); 92_eei_decisions.md D12, D13. -/
def Obligations.FetchPrimitive : Prop :=
  ∀ (s : State) (off : Offset),
    (s.config.mode = .long64 → canonical s.config.vaBits off = false → fetch s off = .fault (.gp0 s.ip)) ∧
    ((s.config.mode = .protectedMode ∨ s.config.mode = .compat) → s.config.csLimit.toNat < off.toNat →
      fetch s off = .fault (.gp0 s.ip)) ∧
    ((s.config.mode = .real ∨ s.config.mode = .v8086) → s.config.csLimit.toNat < off.toNat →
      fetch s off = .fault (.gp s.ip)) ∧
    ((s.config.mode = .long64 ∧ canonical s.config.vaBits off = true ∨
        s.config.mode ≠ .long64 ∧ off.toNat ≤ s.config.csLimit.toNat) →
      (s.code.read off.toNat = none → fetch s off = .refused (.fetchOutsideImage off)) ∧
      (∀ b, s.code.read off.toNat = some b → fetch s off = .next b))

/-- Outside the exit set, when the bytes fetched from ip on, in the fetch's order, decode to an instruction (with any
bytes left over), the step's outcome is that instruction executed on the same state. The choices of the spec and of
the model that it rests on are in notes/assumptions, entries 11, 15. Derived from 40_jcc_common.md section 2 (R65);
30_encoding.md section 4 (R56). -/
def Obligations.StepRunsTheDecodedInstruction : Prop :=
  ∀ (s : State) (bs : List Byte) (i : Instr) (rest : List Byte), s.ip.toNat ∉ s.exits → fetchesBytes s s.ip bs →
    decode s.config bs = .ok i rest → step s = exec i s

/-- For every well-formed instruction without LOCK whose condition does not hold, a step at an ip outside the exit set,
where the fetch gives exactly its encoding, completes with only ip changed, to the following instruction; and if the
condition holds and the target is in bounds, to the target. The choices of the spec and of the model that it rests
on are in notes/assumptions, entries 11, 12, 15. Derived from 40_jcc_common.md section 2 (R65, R66); 20_memory.md
section 1 (R29). -/
def Obligations.StepAtEncodingCompletesNotTaken : Prop :=
  ∀ (s : State) (i : Instr), s.ip.toNat ∉ s.exits → i.wf s.config = true → Prefix.lock ∉ prefixesOf i →
    fetchesBytes s s.ip (encode i) →
    (takenAt i s = false → step s = .next { s with ip := BitVec.ofNat 64 (nextAt i s) }) ∧
    (takenAt i s = true → inBounds s.config (targetAt i s) →
      step s = .next { s with ip := BitVec.ofNat 64 (targetAt i s) })

/-- Outside the exit set, when the bytes fetched so far do not yet make an instruction (leading bytes, LOCK among them,
an opcode without its offset), and the next fetch faults or is refused, the step ends in that fault or refusal. The
choices of the spec and of the model that it rests on are in notes/assumptions, entries 11, 15. Derived from
60_exceptions.md section 3 (R133 (1)); 40_jcc_common.md section 2 (R71 (2)). -/
def Obligations.FetchStopEndsTheStep : Prop :=
  ∀ (s : State) (bs : List Byte), s.ip.toNat ∉ s.exits → fetchesBytes s s.ip bs → decode s.config bs = .short →
    (∀ f, fetch s (offsetAfter s.config s.ip bs.length) = .fault f → step s = .fault f) ∧
    (∀ r, fetch s (offsetAfter s.config s.ip bs.length) = .refused r → step s = .refused r)

/-- Outside the exit set, when the bytes fetched from ip on are refused by the decoder, the step is refused under the
same name and nothing changes; OpcodeOutOfScope is no #UD. The choices of the spec and of the model that it rests on
are in notes/assumptions, entries 13, 15. Derived from 60_exceptions.md section 2 (R132); 30_encoding.md section 6
(R58 (f)). -/
def Obligations.DecoderRefusalEndsTheStep : Prop :=
  ∀ (s : State) (bs : List Byte), s.ip.toNat ∉ s.exits → fetchesBytes s s.ip bs →
    (decode s.config bs = .refused .opcodeOutOfScope → step s = .refused .opcodeOutOfScope) ∧
    (decode s.config bs = .refused .duplicatePrefix → step s = .refused .duplicatePrefix) ∧
    (decode s.config bs = .refused .nearJccWith66HIn64BitMode → step s = .refused .nearJccWith66HIn64BitMode)

/-- A step answers Exit exactly when ip is in the exit set at its start, whatever the code image, the configuration and
the registers: nothing is fetched or decoded there. That Exit is carried by the refusal exit is the model's choice
(notes/assumptions/3.md). The choices of the spec and of the model that it rests on are in notes/assumptions, entry
3. Derived from 70_reset_and_hazards.md section 2 (R142); 40_jcc_common.md section 2 (R65, R71 (1)). -/
def Obligations.ExitComesFirst : Prop :=
  (∀ s : State, s.ip.toNat ∈ s.exits → step s = .refused .exit) ∧
  (∀ s : State, step s = .refused .exit → s.finished)

/-- A step that faults carries the offset the step started at, and is #UD, or #GP in real-address and virtual-8086 mode,
or #GP(0) in the other three. A step that is refused is refused as OpcodeOutOfScope, DuplicatePrefix,
NearJccWith66HIn64BitMode (only in 64-bit mode), FetchOutsideImage at an offset without a byte, or Exit: never as
not modelled and never as not encodable. The choices of the spec and of the model that it rests on are in
notes/assumptions, entries 3, 4, 9, 13. Derived from 60_exceptions.md sections 1 and 2 (R126, R131, R132). -/
def Obligations.StepFaultsAndRefusals : Prop :=
  (∀ (s : State) (f : Fault), step s = .fault f → f.offset = s.ip ∧
    (f = .ud s.ip ∨ (s.config.mode = .real ∨ s.config.mode = .v8086) ∧ f = .gp s.ip ∨
      (s.config.mode = .protectedMode ∨ s.config.mode = .compat ∨ s.config.mode = .long64) ∧ f = .gp0 s.ip)) ∧
  (∀ (s : State) (r : Refusal), step s = .refused r →
    r = .opcodeOutOfScope ∨ r = .duplicatePrefix ∨ (r = .nearJccWith66HIn64BitMode ∧ s.config.mode = .long64) ∨
    (∃ off : Offset, r = .fetchOutsideImage off ∧ s.code.read off.toNat = none) ∨
    (r = .exit ∧ s.finished))

/-- A step in virtual-8086 mode is the step of the same state in real-address mode, and a step in compatibility mode the
step of the same state in protected mode: same outcome, same fault, and the same next state but for the mode field
itself. The choices of the spec and of the model that it rests on are in notes/assumptions, entry 11. Derived from
60_exceptions.md section 6 (R136). -/
def Obligations.V8086StepsAsReal : Prop :=
  ∀ s : State,
    (s.config.mode = .real →
      step { s with config := { s.config with mode := .v8086 } } =
        mapNext (fun t => { t with config := { s.config with mode := .v8086 } }) (step s)) ∧
    (s.config.mode = .protectedMode →
      step { s with config := { s.config with mode := .compat } } =
        mapNext (fun t => { t with config := { s.config with mode := .compat } }) (step s))

/-- Outside 64-bit mode, two states that differ only in the upper half of the count register step alike, each keeping
its own; and in every mode a flag-conditional jump executes alike under any count register, a count-register jump
alike under any flags. The choices of the spec and of the model that it rests on are in notes/assumptions, entry 10.
Derived from 10_state.md section 3 (R17); 40_jcc_common.md section 1 (R63, R64). -/
def Obligations.UpperCountBitsUnread : Prop :=
  (∀ (s : State) (v : BitVec 64), s.config.mode ≠ .long64 → v.toNat % 2 ^ 32 = s.RCX.toNat % 2 ^ 32 →
    step { s with RCX := v } = mapNext (fun t => { t with RCX := v }) (step s)) ∧
  (∀ (i : Instr) (s : State) (v : BitVec 64), (∀ z r, opOf i ≠ .count z r) →
    exec i { s with RCX := v } = mapNext (fun t => { t with RCX := v }) (exec i s)) ∧
  (∀ (i : Instr) (s : State) (z : Size) (r : BitVec 8) (cf' pf' zf' sf' of' : Bool), opOf i = .count z r →
    exec i { s with CF := cf', PF := pf', ZF := zf', SF := sf', OF := of' } =
      mapNext (fun t => { t with CF := cf', PF := pf', ZF := zf', SF := sf', OF := of' }) (exec i s))

/-- For every state that meets the invariant, if the step answers a next state, that state meets it: VA_BITS from 1 to
64, bits 63:32 of ip zero unless the mode is 64-bit mode, the code image and the exit set in canonical form. Outside
64-bit mode bits 63:32 of ip are zero after every completed step, whatever they were before. The choices of the spec
and of the model that it rests on are in notes/assumptions, entries 2, 16. Derived from 10_state.md sections 1 and 6
(R15, R22, R24). -/
def Obligations.InvariantKept : Prop :=
  (∀ s t : State, s.Inv → step s = .next t → t.Inv) ∧
  (∀ s t : State, s.config.mode ≠ .long64 → step s = .next t → t.ip.toNat < 2 ^ 32)

/-- State.reset meets the invariant. The spec gives no reset value: the values are PRESUMED (notes/assumptions/1.md),
and this statement rests on them. Derived from 10_state.md section 9; 70_reset_and_hazards.md section 1. -/
def Obligations.ResetMeetsInvariant : Prop :=
  State.reset.Inv

/-- After any number of steps, the state reached is the launch state with another ip; so the outcome of every condition
is fixed by the launch state for the whole run. The choices of the spec and of the model that it rests on are in
notes/assumptions, entries 2, 7. Derived from 70_reset_and_hazards.md section 3 (R145); 10_state.md section 2. -/
def Obligations.RunsKeepAllButIp : Prop :=
  ∀ (k : Nat) (s t : State), Sys2Proof.core.run k s = .next t →
    t = { s with ip := t.ip } ∧ ∀ op : Op, taken op t = taken op s

/-- From any launch state, either the run ends in Exit, a fault or a refusal within one step more than the code image
has bytes, or within that many steps it comes back to a state it was in before, and then it never ends. The choices
of the spec and of the model that it rests on are in notes/assumptions, entries 2, 7. Derived from
70_reset_and_hazards.md section 3 (R145); 70_reset_and_hazards.md section 2 (R141). -/
def Obligations.RunsEndOrRepeat : Prop :=
  ∀ s : State,
    endsWithin (s.code.length + 1) s ∨
    ((∃ j k u, j < k ∧ k ≤ s.code.length + 1 ∧ Sys2Proof.core.run j s = .next u ∧ Sys2Proof.core.run k s = .next u) ∧
      runsForever s)

/-- At an offset where instructions may be fetched, outside the exit set, in a state that meets the invariant: the bytes
7x FE or E3 FE with the condition true, or outside 64-bit mode with operand size 16 0F 8x FC FF, or else 0F 8x FA FF
FF FF, run forever. In real-address and virtual-8086 mode, and under operand size 16, ip is at most FFFFH. The
choices of the spec and of the model that it rests on are in notes/assumptions, entries 10, 11. Derived from
70_reset_and_hazards.md section 3 (R145). -/
def Obligations.TakenSelfJumpNeverEnds : Prop :=
  ∀ (s : State) (i : Instr) (bs : List Byte), s.Inv → s.ip.toNat ∉ s.exits → fetchesBytes s s.ip bs →
    decode s.config bs = .ok i [] → takenAt i s = true →
    ((s.config.mode = .real ∨ s.config.mode = .v8086 ∨ operandSize s.config [] = .bits16) → s.ip.toNat ≤ 0xFFFF) →
    ((∃ cc, bs = [shortOpcode cc, 0xFE#8]) ∨ bs = [0xE3#8, 0xFE#8] ∨
      (∃ cc, bs = [0x0F#8, nearOpcode cc, 0xFC#8, 0xFF#8]) ∨
      (∃ cc, bs = [0x0F#8, nearOpcode cc, 0xFA#8, 0xFF#8, 0xFF#8, 0xFF#8])) →
    runsForever s

/-- In an image in canonical form, defining the byte at an offset makes that offset read as the byte and leaves the read
of every other offset as it was; two images in canonical form that read alike at every offset are equal. The choices
of the spec and of the model that it rests on are in notes/assumptions, entry 6. Derived from 20_memory.md sections
1 and 4 (R28, R32). -/
def Obligations.ImageReadAfterWrite : Prop :=
  (∀ (m : Memory) (a : Nat) (b : Byte), m.wf = true →
    (m.write a b).read a = some b ∧ ∀ x, x ≠ a → (m.write a b).read x = m.read x) ∧
  (∀ m n : Memory, m.wf = true → n.wf = true → (∀ x, m.read x = n.read x) → m = n)

/-- Laying a table word out at ip and taking ip out of the exit set leaves ip, the flags, the count register and the
configuration as they were, and makes the image read as the table's bytes from ip on, in the order of the fetch; and
when the nine offsets from ip on may be fetched from, fetching there gives exactly these bytes, so that they are
what the next step fetches. (How a program comes to stand in the image is the model's reading of the launch,
notes/assumptions/5.md.) The choices of the spec and of the model that it rests on are in notes/assumptions, entries
5, 11. Derived from 70_reset_and_hazards.md section 1 (R139); 20_memory.md section 1. -/
def Obligations.LoadedInstructionIsFetched : Prop :=
  ∀ (s : State) (nbits w : Nat), s.Inv → nbits ≤ 72 →
    let u := s.withFetchWord nbits w
    u.ip = s.ip ∧ u.CF = s.CF ∧ u.PF = s.PF ∧ u.ZF = s.ZF ∧ u.SF = s.SF ∧ u.OF = s.OF ∧ u.RCX = s.RCX ∧
    u.config = s.config ∧ u.Inv ∧ u.ip.toNat ∉ u.exits ∧
    (∀ (k : Nat) (b : Byte), (tableBytes nbits w)[k]? = some b →
      u.code.read (offsetAfter s.config s.ip k).toNat = some b) ∧
    ((∀ k : Nat, k < 9 → fetchable s.config (offsetAfter s.config s.ip k) = true) →
      fetchesBytes u u.ip (tableBytes nbits w))
end

