-- ==== Sys2Proof/Laws/Decode.lean ====
section
/-! SUPPORT. The small lemmas of the decoder and encoder: condition numbers and leading bytes read back as written, the
offset bytes join to the offset they were cut from, and the operation of a canonical instruction. -/

namespace Sys2Proof

@[simp] theorem ofNibble_nibble (cc : Cond) : Cond.ofNibble (Cond.nibble cc) = cc := by cases cc <;> rfl

@[simp] theorem nibble_ofNibble (n : BitVec 4) : Cond.nibble (Cond.ofNibble n) = n := by
  revert n; decide

@[simp] theorem prefixOfByte_prefixByte (q : Prefix) : prefixOfByte (prefixByte q) = some q := by cases q <;> rfl

theorem prefixOfByte_eq_some {b : Byte} {q : Prefix} (h : prefixOfByte b = some q) : b = prefixByte q := by
  unfold prefixOfByte at h
  split at h
  · cases h; assumption
  · split at h
    · cases h; assumption
    · split at h
      · cases h; assumption
      · cases h

@[simp] theorem joinBytes16_cut (r : BitVec 16) : joinBytes16 (r.extractLsb' 0 8) (r.extractLsb' 8 8) = r := by
  apply BitVec.eq_of_getLsbD_eq
  intro i hi
  simp only [joinBytes16, BitVec.getLsbD_append, BitVec.getLsbD_extractLsb']
  by_cases h : i < 8
  · simp [h]
  · simp [h, show i - 8 < 8 by omega, show 8 + (i - 8) = i by omega]

@[simp] theorem joinBytes32_cut (r : BitVec 32) :
    joinBytes32 (r.extractLsb' 0 8) (r.extractLsb' 8 8) (r.extractLsb' 16 8) (r.extractLsb' 24 8) = r := by
  apply BitVec.eq_of_getLsbD_eq
  intro i hi
  simp only [joinBytes32, BitVec.getLsbD_append, BitVec.getLsbD_extractLsb']
  by_cases h1 : i < 8
  · simp [h1]
  · by_cases h2 : i < 16
    · simp [h1, show i - 8 < 8 by omega, show 8 + (i - 8) = i by omega]
    · by_cases h3 : i < 24
      · simp [h1, show ¬ i - 8 < 8 by omega, show i - 8 - 8 < 8 by omega, show 16 + (i - 8 - 8) = i by omega]
      · simp [h1, show ¬ i - 8 < 8 by omega, show ¬ i - 8 - 8 < 8 by omega,
          show i - 8 - 8 - 8 < 8 by omega, show 24 + (i - 8 - 8 - 8) = i by omega]

@[simp] theorem opOf_toInstr (op : Machine.Op) (p : Prefixes) : Machine.opOf (op.toInstr p) = op := by
  cases op with
  | short cc r => cases cc <;> rfl
  | count size r => cases size <;> rfl
  | near16 cc r => cases cc <;> rfl
  | near32 cc r => cases cc <;> rfl

@[simp] theorem prefixesOf_toInstr (op : Machine.Op) (p : Prefixes) : Machine.prefixesOf (op.toInstr p) = p := by
  cases op with
  | short cc r => cases cc <;> rfl
  | count size r => cases size <;> rfl
  | near16 cc r => cases cc <;> rfl
  | near32 cc r => cases cc <;> rfl

/-- The loop over leading bytes reads new ones, none twice, in their order. -/
theorem decodeFrom_prefixes (c : Config) (p q : Prefixes) (bs : List Byte) (h : (p ++ q).Nodup) :
    decodeFrom c p (q.map prefixByte ++ bs) = decodeFrom c (p ++ q) bs := by
  induction q generalizing p with
  | nil => simp
  | cons x q ih =>
    have hx : x ∉ p := fun hm => (List.nodup_append.mp h).2.2 x hm x (List.mem_cons_self ..) rfl
    have e : p ++ x :: q = (p ++ [x]) ++ q := by simp
    rw [e] at h ⊢
    rw [← ih (p ++ [x]) h]
    simp [decodeFrom, hx]

theorem decode_prefixes (c : Config) (p : Prefixes) (bs : List Byte) (h : p.Nodup) :
    decode c (p.map prefixByte ++ bs) = decodeFrom c p bs := by
  simpa [decode] using decodeFrom_prefixes c [] p bs (by simpa using h)

end Sys2Proof
end

