-- ==== Sys2Proof/Laws/State.lean ====
section
/-! SUPPORT. The small lemmas of the state: each field after the one write any rule makes (`withIp`), after laying a
word out for the next step (`withFetchWord`), and the operations that read only some of the fields. -/

namespace Sys2Proof.Machine

@[simp] theorem withIp_ip (s : State) (target : Offset) : (s.withIp target).ip = target := rfl
@[simp] theorem withIp_CF (s : State) (target : Offset) : (s.withIp target).CF = s.CF := rfl
@[simp] theorem withIp_PF (s : State) (target : Offset) : (s.withIp target).PF = s.PF := rfl
@[simp] theorem withIp_ZF (s : State) (target : Offset) : (s.withIp target).ZF = s.ZF := rfl
@[simp] theorem withIp_SF (s : State) (target : Offset) : (s.withIp target).SF = s.SF := rfl
@[simp] theorem withIp_OF (s : State) (target : Offset) : (s.withIp target).OF = s.OF := rfl
@[simp] theorem withIp_RCX (s : State) (target : Offset) : (s.withIp target).RCX = s.RCX := rfl
@[simp] theorem withIp_config (s : State) (target : Offset) : (s.withIp target).config = s.config := rfl
@[simp] theorem withIp_code (s : State) (target : Offset) : (s.withIp target).code = s.code := rfl
@[simp] theorem withIp_exits (s : State) (target : Offset) : (s.withIp target).exits = s.exits := rfl

theorem withIp_eq (s : State) (target : Offset) : s.withIp target = { s with ip := target } := rfl

@[simp] theorem withIp_withIp (s : State) (a b : Offset) : (s.withIp a).withIp b = s.withIp b := rfl

@[simp] theorem withIp_self (s : State) : s.withIp s.ip = s := rfl

@[simp] theorem withFetchWord_ip (s : State) (nbits w : Nat) : (s.withFetchWord nbits w).ip = s.ip := rfl
@[simp] theorem withFetchWord_CF (s : State) (nbits w : Nat) : (s.withFetchWord nbits w).CF = s.CF := rfl
@[simp] theorem withFetchWord_PF (s : State) (nbits w : Nat) : (s.withFetchWord nbits w).PF = s.PF := rfl
@[simp] theorem withFetchWord_ZF (s : State) (nbits w : Nat) : (s.withFetchWord nbits w).ZF = s.ZF := rfl
@[simp] theorem withFetchWord_SF (s : State) (nbits w : Nat) : (s.withFetchWord nbits w).SF = s.SF := rfl
@[simp] theorem withFetchWord_OF (s : State) (nbits w : Nat) : (s.withFetchWord nbits w).OF = s.OF := rfl
@[simp] theorem withFetchWord_RCX (s : State) (nbits w : Nat) : (s.withFetchWord nbits w).RCX = s.RCX := rfl
@[simp] theorem withFetchWord_config (s : State) (nbits w : Nat) : (s.withFetchWord nbits w).config = s.config := rfl

theorem withFetchWord_code (s : State) (nbits w : Nat) :
    (s.withFetchWord nbits w).code = writeBytes s.config s.code s.ip (tableBytes nbits w) := rfl

theorem withFetchWord_exits (s : State) (nbits w : Nat) :
    (s.withFetchWord nbits w).exits = s.exits.filter (fun e => decide (e ≠ s.ip.toNat)) := rfl

/-- No condition reads `ip`. -/
@[simp] theorem taken_withIp (op : Op) (s : State) (target : Offset) : taken op (s.withIp target) = taken op s := by
  cases op with
  | short cc r => cases cc <;> rfl
  | count size r => cases size <;> rfl
  | near16 cc r => cases cc <;> rfl
  | near32 cc r => cases cc <;> rfl

end Sys2Proof.Machine
end

