-- ==== Sys2Proof/Laws/Ops.lean ====
section
/-! SUPPORT. One lemma per shared operation that says once what it can do, in the terms of Safety.lean: offset
arithmetic as integer arithmetic, the target checks as inequalities, the fetch, the raising of an exception, and the
step of R65. -/

namespace Sys2Proof.Machine

/-! ### Offset arithmetic -/

theorem ipBits_long64 {c : Config} (h : c.mode = .long64) : ipBits c = 64 := by simp [ipBits, h]

theorem ipBits_other {c : Config} (h : c.mode ≠ .long64) : ipBits c = 32 := by simp [ipBits, h]

/-- `a +_W d` is the sum modulo `2^W` (R15). -/
theorem addOffset_toNat (c : Config) (a d : Offset) :
    (addOffset c a d).toNat = (a.toNat + d.toNat) % 2 ^ ipBits c := by
  by_cases h : c.mode = .long64
  · simp [addOffset, h, ipBits]
  · simp [addOffset, h, ipBits]
    omega

/-- `next` is the offset of the following instruction (R14). -/
theorem nextOf_eq (p : Prefixes) (op : Op) (s : State) :
    nextOf p op s = BitVec.ofNat 64 (nextOffset s.config s.ip.toNat (lengthOf p op)) := by
  apply BitVec.eq_of_toNat_eq
  have h64 : 2 ^ ipBits s.config ∣ 2 ^ 64 := by unfold ipBits; split <;> decide
  have hle : 2 ^ ipBits s.config ≤ 2 ^ 64 := Nat.le_of_dvd (by decide) h64
  have hlt := Nat.mod_lt (s.ip.toNat + lengthOf p op) (Nat.two_pow_pos (ipBits s.config))
  rw [nextOf, addOffset_toNat, BitVec.toNat_ofNat, BitVec.toNat_ofNat, nextOffset,
    Nat.mod_eq_of_lt (Nat.lt_of_lt_of_le hlt hle), Nat.add_mod, Nat.mod_mod_of_dvd _ h64, ← Nat.add_mod]

/-- The signed value of the offset of an operation (R49). -/
def relIntOf (op : Op) : Int :=
  match op with
  | .short _ r => r.toInt
  | .count _ r => r.toInt
  | .near16 _ r => r.toInt
  | .near32 _ r => r.toInt

theorem relInt_eq (i : Instr) : relInt i = relIntOf (opOf i) := rfl

theorem relOf_toInt32 (op : Op) : (relOf 32 op).toInt = relIntOf op := by
  cases op <;> simp [relOf, relIntOf, BitVec.toInt_signExtend_of_le]

theorem relOf_toInt64 (op : Op) : (relOf 64 op).toInt = relIntOf op := by
  cases op <;> simp [relOf, relIntOf, BitVec.toInt_signExtend_of_le]

/-- The target is the sum of `next` and the signed offset modulo `2^W`, cut to 16 bits under operand size 16 (R67,
R68). -/
theorem targetFrom_toNat (c : Config) (p : Prefixes) (op : Op) (next : Offset) :
    (targetFrom c p op next).toNat =
      if operandSize c p = .bits16 then (((next.toNat : Int) + relIntOf op) % 2 ^ ipBits c).toNat % 2 ^ 16
      else (((next.toNat : Int) + relIntOf op) % 2 ^ ipBits c).toNat := by
  by_cases h : c.mode = .long64
  · have ho : operandSize c p ≠ .bits16 := by simp [operandSize, h]
    have hr := relOf_toInt64 op
    rw [if_neg ho, ipBits_long64 h, targetFrom, if_pos h, BitVec.toNat_add, ← hr, BitVec.toInt_eq_toNat_cond]
    split <;> omega
  · have hr := relOf_toInt32 op
    have hsum : (next.setWidth 32 + relOf 32 op).toNat = (((next.toNat : Int) + relIntOf op) % 2 ^ 32).toNat := by
      rw [BitVec.toNat_add, BitVec.toNat_setWidth, ← hr, BitVec.toInt_eq_toNat_cond]
      split <;> omega
    have hand : ∀ x : BitVec 32, (x &&& 0x0000FFFF#32).toNat = x.toNat % 2 ^ 16 := by
      intro x
      rw [BitVec.toNat_and]
      exact Nat.and_two_pow_sub_one_eq_mod x.toNat 16
    rw [targetFrom, if_neg h, ipBits_other h]
    by_cases ho : operandSize c p = .bits16
    · simp only [ho, if_true]
      rw [BitVec.toNat_setWidth, hand, hsum]
      omega
    · simp only [ho, if_false]
      rw [BitVec.toNat_setWidth, hsum]
      omega

/-- The target of a taken jump, from the offset of the jump (R67, R68). -/
theorem targetFrom_nextOf (p : Prefixes) (op : Op) (s : State) :
    targetFrom s.config p op (nextOf p op s) =
      BitVec.ofNat 64 (targetOffset s.config p s.ip.toNat (lengthOf p op) (relIntOf op)) := by
  apply BitVec.eq_of_toNat_eq
  rw [targetFrom_toNat, nextOf_eq, BitVec.toNat_ofNat, BitVec.toNat_ofNat, nextOffset, targetOffset]
  have hb : ipBits s.config = 64 ∨ ipBits s.config = 32 := by unfold ipBits; split <;> simp
  rcases hb with hb | hb <;> rw [hb] <;> split <;> omega

theorem targetOffset_lt (c : Config) (p : Prefixes) (a len : Nat) (rel : Int) :
    targetOffset c p a len rel < 2 ^ ipBits c := by
  have hb : ipBits c = 64 ∨ ipBits c = 32 := by unfold ipBits; split <;> simp
  unfold targetOffset
  rcases hb with hb | hb <;> rw [hb] <;> split <;> omega

/-! ### Checks -/

/-- Canonical form as a pair of ranges (R36). -/
theorem canonical_iff (va : Nat) (t : Offset) :
    canonical va t = true ↔ t.toNat < 2 ^ (va - 1) ∨ 2 ^ 64 ≤ t.toNat + 2 ^ (va - 1) := by
  have hk : (0 : Int) < 2 ^ (va - 1) := by positivity
  have hlt := t.isLt
  have h0 : (0#64 : BitVec 64).toInt = 0 := by decide
  have h1 : (BitVec.allOnes 64).toInt = -1 := by decide
  have hcast : ((2 ^ (va - 1) : Nat) : Int) = 2 ^ (va - 1) := by push_cast; rfl
  have hi := BitVec.toInt_eq_toNat_cond t
  simp only [canonical, Bool.or_eq_true, decide_eq_true_eq, ← BitVec.toInt_inj, h0, h1, BitVec.toInt_sshiftRight,
    Int.shiftRight_eq_div_pow, hcast]
  have e0 : t.toInt / 2 ^ (va - 1) = 0 ↔ 0 ≤ t.toInt ∧ t.toInt < 2 ^ (va - 1) := by
    rw [Int.ediv_eq_iff_of_pos hk]; omega
  have e1 : t.toInt / 2 ^ (va - 1) = -1 ↔ -2 ^ (va - 1) ≤ t.toInt ∧ t.toInt < 0 := by
    rw [Int.ediv_eq_iff_of_pos hk]; omega
  rw [e0, e1]
  by_cases hva : va - 1 ≤ 63
  · have hp : (2 : Nat) ^ (va - 1) ≤ 2 ^ 63 := Nat.pow_le_pow_right (by decide) hva
    rw [← hcast]
    split at hi <;> omega
  · have hp : (2 : Nat) ^ 64 ≤ 2 ^ (va - 1) := Nat.pow_le_pow_right (by decide) (by omega)
    rw [← hcast]
    split at hi <;> omega

/-- The checks on a target as inequalities (R69). -/
theorem targetAllowed_iff (c : Config) (t : Nat) (ht : t < 2 ^ ipBits c) :
    targetAllowed c (BitVec.ofNat 64 t) = true ↔ inBounds c t := by
  unfold targetAllowed inBounds
  cases hm : c.mode <;> simp only [ipBits, hm] at ht ⊢ <;> simp [BitVec.le_def, canonical_iff] at * <;> omega

/-! ### Exceptions and the fetch -/

theorem raise_ud {α : Type} (s : State) : (raise .ud s : Host.Outcome α Fault Refusal) = .fault (.ud s.ip) := by
  cases h : s.config.mode <;> rfl

theorem raise_gp {α : Type} (s : State) :
    (raise .gp s : Host.Outcome α Fault Refusal) = .fault (targetFault s.config s.ip) := by
  cases h : s.config.mode <;> simp [raise, faultFor, targetFault, h]

theorem fetch_next_iff (s : State) (off : Offset) (b : Byte) :
    fetch s off = .next b ↔ fetchable s.config off = true ∧ s.code.read off.toNat = some b := by
  unfold fetch raise
  cases fetchable s.config off <;> cases s.code.read off.toNat <;> simp

/-- What a fetch can answer (R29). -/
theorem fetch_cases (s : State) (off : Offset) :
    (fetchable s.config off = false ∧ fetch s off = .fault (targetFault s.config s.ip)) ∨
    (fetchable s.config off = true ∧ s.code.read off.toNat = none ∧ fetch s off = .refused (.fetchOutsideImage off)) ∨
    (∃ b, fetchable s.config off = true ∧ s.code.read off.toNat = some b ∧ fetch s off = .next b) := by
  unfold fetch
  rw [raise_gp]
  cases fetchable s.config off <;> cases s.code.read off.toNat <;> simp

/-! ### The step of R65 -/

theorem execOp_unencodable {op : Op} {p : Prefixes} {s : State} (h : encodable s.config p op = false) :
    execOp op p s = .refused .notEncodable := by simp [execOp, h]

theorem execOp_lock {op : Op} {p : Prefixes} {s : State} (h : encodable s.config p op = true)
    (hl : Prefix.lock ∈ p) : execOp op p s = .fault (.ud s.ip) := by simp [execOp, h, hl, raise_ud]

theorem execOp_notTaken {op : Op} {p : Prefixes} {s : State} (h : encodable s.config p op = true)
    (hl : Prefix.lock ∉ p) (ht : taken op s = false) : execOp op p s = .next (s.withIp (nextOf p op s)) := by
  simp [execOp, h, hl, ht]

theorem execOp_taken {op : Op} {p : Prefixes} {s : State} (h : encodable s.config p op = true)
    (hl : Prefix.lock ∉ p) (ht : taken op s = true) : execOp op p s = jumpTaken p op s := by
  simp [execOp, h, hl, ht]

/-- All the shared step can do. -/
theorem execOp_cases (op : Op) (p : Prefixes) (s : State) :
    (encodable s.config p op = false ∧ execOp op p s = .refused .notEncodable) ∨
    (encodable s.config p op = true ∧ Prefix.lock ∈ p ∧ execOp op p s = .fault (.ud s.ip)) ∨
    (encodable s.config p op = true ∧ Prefix.lock ∉ p ∧ taken op s = false ∧
      execOp op p s = .next (s.withIp (nextOf p op s))) ∨
    (encodable s.config p op = true ∧ Prefix.lock ∉ p ∧ taken op s = true ∧
      targetAllowed s.config (targetFrom s.config p op (nextOf p op s)) = true ∧
      execOp op p s = .next (s.withIp (targetFrom s.config p op (nextOf p op s)))) ∨
    (encodable s.config p op = true ∧ Prefix.lock ∉ p ∧ taken op s = true ∧
      targetAllowed s.config (targetFrom s.config p op (nextOf p op s)) = false ∧
      execOp op p s = .fault (targetFault s.config s.ip)) := by
  cases h : encodable s.config p op with
  | false => exact .inl ⟨rfl, execOp_unencodable h⟩
  | true =>
    by_cases hl : Prefix.lock ∈ p
    · exact .inr (.inl ⟨rfl, hl, execOp_lock h hl⟩)
    · cases ht : taken op s with
      | false => exact .inr (.inr (.inl ⟨rfl, hl, rfl, execOp_notTaken h hl ht⟩))
      | true =>
        have he := execOp_taken h hl ht
        cases ha : targetAllowed s.config (targetFrom s.config p op (nextOf p op s)) with
        | true => exact .inr (.inr (.inr (.inl ⟨rfl, hl, rfl, rfl, by simp [he, jumpTaken, ha]⟩)))
        | false => exact .inr (.inr (.inr (.inr ⟨rfl, hl, rfl, rfl, by simp [he, jumpTaken, ha, raise_gp]⟩)))

/-- The one write of the shared step (R70). -/
theorem execOp_next {op : Op} {p : Prefixes} {s t : State} (h : execOp op p s = .next t) : t = s.withIp t.ip := by
  rcases execOp_cases op p s with ⟨_, e⟩ | ⟨_, _, e⟩ | ⟨_, _, _, e⟩ | ⟨_, _, _, _, e⟩ | ⟨_, _, _, _, e⟩ <;>
    rw [e] at h <;> cases h <;> rfl

/-- Every meaning is the shared step at its row's operation. -/
theorem exec_eq_execOp (i : Instr) (s : State) : exec i s = execOp (opOf i) (prefixesOf i) s := by cases i <;> rfl

end Sys2Proof.Machine
end

