-- ==== Sys2Proof/Laws/Fetch.lean ====
section
/-! SUPPORT. The decoder on more bytes than it needs, how many bytes it can need, and what the fetch hands it: the
lemmas that connect `fetchInstr` with the bytes fetched. -/

namespace Sys2Proof

open Machine

/-- What further bytes do to an answer of the decoder: nothing but lengthen what is left over. -/
def DecodeResult.append (r : DecodeResult) (more : List Byte) : DecodeResult :=
  match r with
  | .ok i rest => .ok i (rest ++ more)
  | .refused q => .refused q
  | .short => .short

theorem decodeNear_append (c : Config) (p : Prefixes) (cc : Cond) (bs more : List Byte)
    (h : decodeNear c p cc bs ≠ .short) : decodeNear c p cc (bs ++ more) = (decodeNear c p cc bs).append more := by
  unfold decodeNear at h ⊢
  split
  · rfl
  · split
    · match bs with
      | [] => simp_all
      | [_] => simp_all
      | _ :: _ :: _ => rfl
    · match bs with
      | [] => simp_all
      | [_] => simp_all
      | [_, _] => simp_all
      | [_, _, _] => simp_all
      | _ :: _ :: _ :: _ :: _ => rfl

theorem decodeOpcode_append (c : Config) (p : Prefixes) (b : Byte) (bs more : List Byte)
    (h : decodeOpcode c p b bs ≠ .short) : decodeOpcode c p b (bs ++ more) = (decodeOpcode c p b bs).append more := by
  unfold decodeOpcode at h ⊢
  split
  · cases bs <;> simp_all [DecodeResult.append]
  · split
    · cases bs <;> simp_all [DecodeResult.append]
    · split
      · cases bs with
        | nil => simp_all
        | cons b' rest =>
          simp only [List.cons_append]
          split
          · rename_i h1 h2 h3 h4
            exact decodeNear_append c p _ rest more (by simpa [h1, h2, h3, h4] using h)
          · rfl
      · rfl

/-- An answer of the decoder other than `short` does not depend on further bytes. -/
theorem decodeFrom_append (c : Config) (p : Prefixes) (bs more : List Byte) (h : decodeFrom c p bs ≠ .short) :
    decodeFrom c p (bs ++ more) = (decodeFrom c p bs).append more := by
  induction bs generalizing p with
  | nil => exact absurd rfl h
  | cons b rest ih =>
    simp only [List.cons_append, decodeFrom] at h ⊢
    split
    · split
      · rfl
      · rename_i q hq hp
        exact ih _ (by simpa [hq, hp] using h)
    · rename_i hn
      exact decodeOpcode_append c p b rest more (by simpa [hn] using h)

theorem decodeNear_short_length {c : Config} {p : Prefixes} {cc : Cond} {bs : List Byte}
    (h : decodeNear c p cc bs = .short) : bs.length ≤ 3 := by
  unfold decodeNear at h
  split at h
  · cases h
  · split at h
    · match bs, h with
      | [], _ => simp
      | [_], _ => simp
      | _ :: _ :: _, h => cases h
    · match bs, h with
      | [], _ => simp
      | [_], _ => simp
      | [_, _], _ => simp
      | [_, _, _], _ => simp
      | _ :: _ :: _ :: _ :: _, h => cases h

theorem decodeOpcode_short_length {c : Config} {p : Prefixes} {b : Byte} {bs : List Byte}
    (h : decodeOpcode c p b bs = .short) : bs.length ≤ 4 := by
  unfold decodeOpcode at h
  split at h
  · cases bs <;> simp_all
  · split at h
    · cases bs <;> simp_all
    · split at h
      · cases bs with
        | nil => simp
        | cons b' rest =>
          simp only at h
          split at h
          · have := decodeNear_short_length h
            simp; omega
          · cases h
      · cases h

/-- At most three leading bytes stand without one standing twice. -/
theorem nodup_prefixes_length {p : Prefixes} (h : p.Nodup) : p.length ≤ 3 := by
  have hs : p ⊆ [Prefix.opSize, Prefix.addrSize, Prefix.lock] := fun x _ => by cases x <;> simp
  simpa using (h.subperm hs).length_le

theorem decodeFrom_short_length {c : Config} {p : Prefixes} {bs : List Byte} (hp : p.Nodup)
    (h : decodeFrom c p bs = .short) : p.length + bs.length ≤ 8 := by
  induction bs generalizing p with
  | nil => have := nodup_prefixes_length hp; simp; omega
  | cons b rest ih =>
    simp only [decodeFrom] at h
    split at h
    · split at h
      · cases h
      · rename_i q hq hn
        have hn' : (p ++ [q]).Nodup := by
          rw [List.nodup_append]
          exact ⟨hp, by simp, fun a ha b hb => by simp at hb; subst hb; rintro rfl; exact hn ha⟩
        have := ih hn' h
        simp at this ⊢; omega
    · have := decodeOpcode_short_length h
      have := nodup_prefixes_length hp
      simp; omega

/-- Nine bytes are always enough (R55). -/
theorem decode_short_length {c : Config} {bs : List Byte} (h : decode c bs = .short) : bs.length ≤ 8 := by
  simpa using decodeFrom_short_length (p := []) (by simp) h

theorem decode_append {c : Config} {bs : List Byte} (more : List Byte) (h : decode c bs ≠ .short) :
    decode c (bs ++ more) = (decode c bs).append more := decodeFrom_append c [] bs more h

/-! ### The window of the fetch -/

theorem fetchWindow_bytes (s : State) (n : Nat) (off : Offset) : fetchesBytes s off (fetchWindow s n off).1 := by
  induction n generalizing off with
  | zero => trivial
  | succ n ih =>
    unfold fetchWindow
    cases h : fetch s off with
    | next b => exact ⟨h, ih _⟩
    | fault f => trivial
    | refused r => trivial

theorem fetchWindow_length_le (s : State) (n : Nat) (off : Offset) : (fetchWindow s n off).1.length ≤ n := by
  induction n generalizing off with
  | zero => simp [fetchWindow]
  | succ n ih =>
    unfold fetchWindow
    cases h : fetch s off with
    | next b => simpa using ih _
    | fault f => simp
    | refused r => simp

/-- A window that is not full ended in what the next fetch answers. -/
theorem fetchWindow_stop (s : State) (n : Nat) (off : Offset) :
    (fetchWindow s n off).1.length = n ∨
    (∃ f, fetch s (offsetAfter s.config off (fetchWindow s n off).1.length) = .fault f ∧
      (fetchWindow s n off).2 = .fault f) ∨
    (∃ r, fetch s (offsetAfter s.config off (fetchWindow s n off).1.length) = .refused r ∧
      (fetchWindow s n off).2 = .refused r) := by
  induction n generalizing off with
  | zero => exact .inl rfl
  | succ n ih =>
    unfold fetchWindow
    cases h : fetch s off with
    | next b => simpa [offsetAfter] using ih (addOffset s.config off 1#64)
    | fault f => exact .inr (.inl ⟨f, by simpa [offsetAfter] using h, rfl⟩)
    | refused r => exact .inr (.inr ⟨r, by simpa [offsetAfter] using h, rfl⟩)

/-- Two runs of bytes fetched from one offset: one begins the other. -/
theorem fetchesBytes_comparable {s : State} {off : Offset} {bs cs : List Byte} (h : fetchesBytes s off bs)
    (h' : fetchesBytes s off cs) : (∃ ds, bs ++ ds = cs) ∨ (∃ ds, cs ++ ds = bs) := by
  induction bs generalizing off cs with
  | nil => exact .inl ⟨cs, rfl⟩
  | cons b bs ih =>
    cases cs with
    | nil => exact .inr ⟨b :: bs, rfl⟩
    | cons c cs =>
      have hb : b = c := by
        have := h.1.symm.trans h'.1
        injection this
      subst hb
      rcases ih h.2 h'.2 with ⟨ds, hd⟩ | ⟨ds, hd⟩
      · exact .inl ⟨ds, by simp [hd]⟩
      · exact .inr ⟨ds, by simp [hd]⟩

theorem fetchesBytes_append {s : State} {off : Offset} {bs cs : List Byte} :
    fetchesBytes s off (bs ++ cs) ↔
      fetchesBytes s off bs ∧ fetchesBytes s (offsetAfter s.config off bs.length) cs := by
  induction bs generalizing off with
  | nil => simp [fetchesBytes, offsetAfter]
  | cons b bs ih => simp [fetchesBytes, offsetAfter, ih, and_assoc]

/-- What the decoder answers on bytes that can be fetched, short of `short`, is what `fetchInstr` finds. -/
theorem decode_window {s : State} {bs : List Byte} (hb : fetchesBytes s s.ip bs) (h : decode s.config bs ≠ .short) :
    (∀ i rest, decode s.config bs = .ok i rest → fetchInstr s = .next i) ∧
    (∀ r, decode s.config bs = .refused r → fetchInstr s = .refused (refusalOf r)) := by
  have hw := fetchWindow_bytes s maxLength s.ip
  rcases fetchesBytes_comparable hb hw with ⟨ds, hd⟩ | ⟨ds, hd⟩
  · have e := decode_append ds h
    rw [hd] at e
    exact ⟨fun i rest hi => by simp [fetchInstr, e, hi, DecodeResult.append],
      fun r hr => by simp [fetchInstr, e, hr, DecodeResult.append]⟩
  · by_cases hs : decode s.config (fetchWindow s maxLength s.ip).1 = .short
    · have hl := decode_short_length hs
      rcases fetchWindow_stop s maxLength s.ip with hn | ⟨f, hf, -⟩ | ⟨r, hr, -⟩
      · exact absurd hl (by rw [hn]; decide)
      all_goals
        cases ds with
        | nil => simp at hd; rw [hd] at hs; exact absurd hs h
        | cons d ds =>
          rw [← hd, fetchesBytes_append] at hb
          have := hb.2.1
          simp_all
    · have e := decode_append ds hs
      rw [hd] at e
      constructor
      · intro i rest hi
        rw [hi] at e
        cases hdw : decode s.config (fetchWindow s maxLength s.ip).1 <;>
          simp_all [fetchInstr, DecodeResult.append]
      · intro r hr
        rw [hr] at e
        cases hdw : decode s.config (fetchWindow s maxLength s.ip).1 <;>
          simp_all [fetchInstr, DecodeResult.append]

/-- What ends the fetch before the instruction is complete ends `fetchInstr`. -/
theorem short_window {s : State} {bs : List Byte} (hb : fetchesBytes s s.ip bs) (h : decode s.config bs = .short) :
    (∀ f, fetch s (offsetAfter s.config s.ip bs.length) = .fault f → fetchInstr s = .fault f) ∧
    (∀ r, fetch s (offsetAfter s.config s.ip bs.length) = .refused r → fetchInstr s = .refused r) := by
  have hw := fetchWindow_bytes s maxLength s.ip
  have hl := decode_short_length h
  have key : ∀ (hne : ∀ b, fetch s (offsetAfter s.config s.ip bs.length) ≠ .next b),
      (fetchWindow s maxLength s.ip).1 = bs := by
    intro hne
    rcases fetchesBytes_comparable hb hw with ⟨ds, hd⟩ | ⟨ds, hd⟩
    · cases ds with
      | nil => simpa using hd.symm
      | cons d ds =>
        rw [← hd, fetchesBytes_append] at hw
        exact absurd hw.2.1 (hne d)
    · cases ds with
      | nil => simpa using hd
      | cons d ds =>
        rw [← hd, fetchesBytes_append] at hb
        rcases fetchWindow_stop s maxLength s.ip with hn | ⟨f, hf, -⟩ | ⟨r, hr, -⟩
        · rw [← hd, List.length_append, hn] at hl
          exact absurd hl (by simp [maxLength]; omega)
        · rw [hb.2.1] at hf; cases hf
        · rw [hb.2.1] at hr; cases hr
  constructor
  · intro f hf
    have e := key (fun b => by rw [hf]; simp)
    rcases fetchWindow_stop s maxLength s.ip with hn | ⟨g, hg, h2⟩ | ⟨r, hr, h2⟩
    · rw [e] at hn; simp [hn, maxLength] at hl
    · rw [e, hf] at hg; cases hg; simp [fetchInstr, e, h, h2]
    · rw [e, hf] at hr; cases hr
  · intro r hr
    have e := key (fun b => by rw [hr]; simp)
    rcases fetchWindow_stop s maxLength s.ip with hn | ⟨g, hg, h2⟩ | ⟨q, hq, h2⟩
    · rw [e] at hn; simp [hn, maxLength] at hl
    · rw [e, hr] at hg; cases hg
    · rw [e, hr] at hq; cases hq; simp [fetchInstr, e, h, h2]

/-- All the decoding at `ip` can do (R56): bytes that are fetched and decode to an instruction, bytes that are fetched
and refused by the decoder, or bytes that are fetched, are too few, and have a fetch behind them that fails. -/
theorem fetchInstr_cases (s : State) :
    ∃ bs, fetchesBytes s s.ip bs ∧
      ((∃ i rest, decode s.config bs = .ok i rest ∧ fetchInstr s = .next i) ∨
       (∃ r, decode s.config bs = .refused r ∧ fetchInstr s = .refused (refusalOf r)) ∨
       (decode s.config bs = .short ∧
         ((∃ f, fetch s (offsetAfter s.config s.ip bs.length) = .fault f ∧ fetchInstr s = .fault f) ∨
          (∃ r, fetch s (offsetAfter s.config s.ip bs.length) = .refused r ∧ fetchInstr s = .refused r)))) := by
  refine ⟨(fetchWindow s maxLength s.ip).1, fetchWindow_bytes s _ _, ?_⟩
  cases h : decode s.config (fetchWindow s maxLength s.ip).1 with
  | ok i rest => exact .inl ⟨i, rest, rfl, by simp [fetchInstr, h]⟩
  | refused r => exact .inr (.inl ⟨r, rfl, by simp [fetchInstr, h]⟩)
  | short =>
    refine .inr (.inr ⟨rfl, ?_⟩)
    have hl := decode_short_length h
    rcases fetchWindow_stop s maxLength s.ip with hn | ⟨f, hf, h2⟩ | ⟨r, hr, h2⟩
    · exact absurd hl (by rw [hn]; decide)
    · exact .inl ⟨f, hf, by simp [fetchInstr, h, h2]⟩
    · exact .inr ⟨r, hr, by simp [fetchInstr, h, h2]⟩

end Sys2Proof
end

