-- ==== Sys2Proof/Laws/Memory.lean ====
section
/-! SUPPORT. The canonical form of the code image and of the exit set is kept by every operation on them. -/

namespace Sys2Proof.Machine

theorem Memory.wf_iff (m : Memory) :
    m.wf = true ↔ m.Pairwise (fun x y => x.1 < y.1) ∧ ∀ x ∈ m, x.1 < 2 ^ 64 := by
  simp [Memory.wf]

theorem Exits.wf_iff (e : Exits) :
    Exits.wf e = true ↔ e.Pairwise (fun x y => x < y) ∧ ∀ x ∈ e, x < 2 ^ 64 := by
  simp [Exits.wf]

/-- The entries after a write: the new one, and old ones at other offsets. -/
theorem Memory.mem_write {m : Memory} {a : Nat} {b : Byte} {x : Host.Cell} (h : x ∈ m.write a b) :
    x = (a, b) ∨ x ∈ m := by
  induction m with
  | nil => simpa [Memory.write] using h
  | cons hd tl ih =>
    obtain ⟨k, v⟩ := hd
    unfold Memory.write at h
    split at h
    · simpa using h
    · split at h
      · rcases List.mem_cons.mp h with rfl | h
        · exact .inl rfl
        · exact .inr (List.mem_cons_of_mem _ h)
      · rcases List.mem_cons.mp h with rfl | h
        · exact .inr (List.mem_cons_self ..)
        · rcases ih h with rfl | h
          · exact .inl rfl
          · exact .inr (List.mem_cons_of_mem _ h)

/-- A write keeps the canonical form. -/
theorem Memory.write_wf {m : Memory} (h : m.wf = true) {a : Nat} (ha : a < 2 ^ 64) (b : Byte) :
    (m.write a b).wf = true := by
  rw [Memory.wf_iff] at h ⊢
  refine ⟨?_, fun x hx => ?_⟩
  · obtain ⟨h, -⟩ := h
    induction m with
    | nil => simp [Memory.write]
    | cons hd tl ih =>
      obtain ⟨k, v⟩ := hd
      obtain ⟨h1, h2⟩ := List.pairwise_cons.mp h
      unfold Memory.write
      split
      · rename_i hak
        refine List.pairwise_cons.mpr ⟨fun y hy => ?_, h⟩
        rcases List.mem_cons.mp hy with rfl | hy
        · exact hak
        · exact Nat.lt_trans hak (h1 y hy)
      · split
        · rename_i hak
          subst hak
          exact List.pairwise_cons.mpr ⟨h1, h2⟩
        · refine List.pairwise_cons.mpr ⟨fun y hy => ?_, ih h2⟩
          rcases Memory.mem_write hy with rfl | hy
          · simp only; omega
          · exact h1 y hy
  · rcases Memory.mem_write hx with rfl | hx
    · exact ha
    · exact h.2 x hx

theorem writeBytes_wf (c : Config) (bs : List Byte) (m : Memory) (off : Offset) (h : m.wf = true) :
    (writeBytes c m off bs).wf = true := by
  induction bs generalizing m off with
  | nil => exact h
  | cons b rest ih => exact ih _ _ (Memory.write_wf h off.isLt b)

/-- Removing an offset keeps the canonical form of an exit set. -/
theorem Exits.filter_wf {e : Exits} (h : Exits.wf e = true) (f : Nat → Bool) : Exits.wf (e.filter f) = true := by
  rw [Exits.wf_iff] at h ⊢
  exact ⟨h.1.sublist List.filter_sublist, fun x hx => h.2 x (List.mem_filter.mp hx).1⟩

theorem reset_code_wf : State.reset.code.wf = true := by decide

end Sys2Proof.Machine
end

