-- ==== Sys2Proof/Laws/PerInstr.lean ====
section
/-! SUPPORT. The per-instruction families of LAWS.json. `EncodedLength`: the encoder writes as many bytes as R55 says
the instruction is long. -/

namespace Sys2Proof.Laws.EncodedLength

/-- The encoding of `i` has the length of R55. -/
def Statement (i : Instr) : Prop :=
  (encode i).length = Machine.lengthOf (Machine.prefixesOf i) (Machine.opOf i)

/-- The one computation behind the family: the bytes of any operation behind any leading bytes. -/
theorem encodeOp_length (p : Prefixes) (op : Machine.Op) : (encodeOp p op).length = Machine.lengthOf p op := by
  cases op <;> simp [encodeOp, opBytes, Machine.lengthOf, Machine.Op.size]

theorem joRel8 (p : Prefixes) (r : BitVec 8) : Statement (.joRel8 p r) := encodeOp_length p _
theorem jnoRel8 (p : Prefixes) (r : BitVec 8) : Statement (.jnoRel8 p r) := encodeOp_length p _
theorem jbRel8 (p : Prefixes) (r : BitVec 8) : Statement (.jbRel8 p r) := encodeOp_length p _
theorem jcRel8 (p : Prefixes) (r : BitVec 8) : Statement (.jcRel8 p r) := encodeOp_length p _
theorem jnaeRel8 (p : Prefixes) (r : BitVec 8) : Statement (.jnaeRel8 p r) := encodeOp_length p _
theorem jaeRel8 (p : Prefixes) (r : BitVec 8) : Statement (.jaeRel8 p r) := encodeOp_length p _
theorem jnbRel8 (p : Prefixes) (r : BitVec 8) : Statement (.jnbRel8 p r) := encodeOp_length p _
theorem jncRel8 (p : Prefixes) (r : BitVec 8) : Statement (.jncRel8 p r) := encodeOp_length p _
theorem jeRel8 (p : Prefixes) (r : BitVec 8) : Statement (.jeRel8 p r) := encodeOp_length p _
theorem jzRel8 (p : Prefixes) (r : BitVec 8) : Statement (.jzRel8 p r) := encodeOp_length p _
theorem jneRel8 (p : Prefixes) (r : BitVec 8) : Statement (.jneRel8 p r) := encodeOp_length p _
theorem jnzRel8 (p : Prefixes) (r : BitVec 8) : Statement (.jnzRel8 p r) := encodeOp_length p _
theorem jbeRel8 (p : Prefixes) (r : BitVec 8) : Statement (.jbeRel8 p r) := encodeOp_length p _
theorem jnaRel8 (p : Prefixes) (r : BitVec 8) : Statement (.jnaRel8 p r) := encodeOp_length p _
theorem jaRel8 (p : Prefixes) (r : BitVec 8) : Statement (.jaRel8 p r) := encodeOp_length p _
theorem jnbeRel8 (p : Prefixes) (r : BitVec 8) : Statement (.jnbeRel8 p r) := encodeOp_length p _
theorem jsRel8 (p : Prefixes) (r : BitVec 8) : Statement (.jsRel8 p r) := encodeOp_length p _
theorem jnsRel8 (p : Prefixes) (r : BitVec 8) : Statement (.jnsRel8 p r) := encodeOp_length p _
theorem jpRel8 (p : Prefixes) (r : BitVec 8) : Statement (.jpRel8 p r) := encodeOp_length p _
theorem jpeRel8 (p : Prefixes) (r : BitVec 8) : Statement (.jpeRel8 p r) := encodeOp_length p _
theorem jnpRel8 (p : Prefixes) (r : BitVec 8) : Statement (.jnpRel8 p r) := encodeOp_length p _
theorem jpoRel8 (p : Prefixes) (r : BitVec 8) : Statement (.jpoRel8 p r) := encodeOp_length p _
theorem jlRel8 (p : Prefixes) (r : BitVec 8) : Statement (.jlRel8 p r) := encodeOp_length p _
theorem jngeRel8 (p : Prefixes) (r : BitVec 8) : Statement (.jngeRel8 p r) := encodeOp_length p _
theorem jgeRel8 (p : Prefixes) (r : BitVec 8) : Statement (.jgeRel8 p r) := encodeOp_length p _
theorem jnlRel8 (p : Prefixes) (r : BitVec 8) : Statement (.jnlRel8 p r) := encodeOp_length p _
theorem jleRel8 (p : Prefixes) (r : BitVec 8) : Statement (.jleRel8 p r) := encodeOp_length p _
theorem jngRel8 (p : Prefixes) (r : BitVec 8) : Statement (.jngRel8 p r) := encodeOp_length p _
theorem jgRel8 (p : Prefixes) (r : BitVec 8) : Statement (.jgRel8 p r) := encodeOp_length p _
theorem jnleRel8 (p : Prefixes) (r : BitVec 8) : Statement (.jnleRel8 p r) := encodeOp_length p _
theorem jcxz (p : Prefixes) (r : BitVec 8) : Statement (.jcxz p r) := encodeOp_length p _
theorem jecxz (p : Prefixes) (r : BitVec 8) : Statement (.jecxz p r) := encodeOp_length p _
theorem jrcxz (p : Prefixes) (r : BitVec 8) : Statement (.jrcxz p r) := encodeOp_length p _
theorem joRel16 (p : Prefixes) (r : BitVec 16) : Statement (.joRel16 p r) := encodeOp_length p _
theorem jnoRel16 (p : Prefixes) (r : BitVec 16) : Statement (.jnoRel16 p r) := encodeOp_length p _
theorem jbRel16 (p : Prefixes) (r : BitVec 16) : Statement (.jbRel16 p r) := encodeOp_length p _
theorem jcRel16 (p : Prefixes) (r : BitVec 16) : Statement (.jcRel16 p r) := encodeOp_length p _
theorem jnaeRel16 (p : Prefixes) (r : BitVec 16) : Statement (.jnaeRel16 p r) := encodeOp_length p _
theorem jaeRel16 (p : Prefixes) (r : BitVec 16) : Statement (.jaeRel16 p r) := encodeOp_length p _
theorem jnbRel16 (p : Prefixes) (r : BitVec 16) : Statement (.jnbRel16 p r) := encodeOp_length p _
theorem jncRel16 (p : Prefixes) (r : BitVec 16) : Statement (.jncRel16 p r) := encodeOp_length p _
theorem jeRel16 (p : Prefixes) (r : BitVec 16) : Statement (.jeRel16 p r) := encodeOp_length p _
theorem jzRel16 (p : Prefixes) (r : BitVec 16) : Statement (.jzRel16 p r) := encodeOp_length p _
theorem jneRel16 (p : Prefixes) (r : BitVec 16) : Statement (.jneRel16 p r) := encodeOp_length p _
theorem jnzRel16 (p : Prefixes) (r : BitVec 16) : Statement (.jnzRel16 p r) := encodeOp_length p _
theorem jbeRel16 (p : Prefixes) (r : BitVec 16) : Statement (.jbeRel16 p r) := encodeOp_length p _
theorem jnaRel16 (p : Prefixes) (r : BitVec 16) : Statement (.jnaRel16 p r) := encodeOp_length p _
theorem jaRel16 (p : Prefixes) (r : BitVec 16) : Statement (.jaRel16 p r) := encodeOp_length p _
theorem jnbeRel16 (p : Prefixes) (r : BitVec 16) : Statement (.jnbeRel16 p r) := encodeOp_length p _
theorem jsRel16 (p : Prefixes) (r : BitVec 16) : Statement (.jsRel16 p r) := encodeOp_length p _
theorem jnsRel16 (p : Prefixes) (r : BitVec 16) : Statement (.jnsRel16 p r) := encodeOp_length p _
theorem jpRel16 (p : Prefixes) (r : BitVec 16) : Statement (.jpRel16 p r) := encodeOp_length p _
theorem jpeRel16 (p : Prefixes) (r : BitVec 16) : Statement (.jpeRel16 p r) := encodeOp_length p _
theorem jnpRel16 (p : Prefixes) (r : BitVec 16) : Statement (.jnpRel16 p r) := encodeOp_length p _
theorem jpoRel16 (p : Prefixes) (r : BitVec 16) : Statement (.jpoRel16 p r) := encodeOp_length p _
theorem jlRel16 (p : Prefixes) (r : BitVec 16) : Statement (.jlRel16 p r) := encodeOp_length p _
theorem jngeRel16 (p : Prefixes) (r : BitVec 16) : Statement (.jngeRel16 p r) := encodeOp_length p _
theorem jgeRel16 (p : Prefixes) (r : BitVec 16) : Statement (.jgeRel16 p r) := encodeOp_length p _
theorem jnlRel16 (p : Prefixes) (r : BitVec 16) : Statement (.jnlRel16 p r) := encodeOp_length p _
theorem jleRel16 (p : Prefixes) (r : BitVec 16) : Statement (.jleRel16 p r) := encodeOp_length p _
theorem jngRel16 (p : Prefixes) (r : BitVec 16) : Statement (.jngRel16 p r) := encodeOp_length p _
theorem jgRel16 (p : Prefixes) (r : BitVec 16) : Statement (.jgRel16 p r) := encodeOp_length p _
theorem jnleRel16 (p : Prefixes) (r : BitVec 16) : Statement (.jnleRel16 p r) := encodeOp_length p _
theorem joRel32 (p : Prefixes) (r : BitVec 32) : Statement (.joRel32 p r) := encodeOp_length p _
theorem jnoRel32 (p : Prefixes) (r : BitVec 32) : Statement (.jnoRel32 p r) := encodeOp_length p _
theorem jbRel32 (p : Prefixes) (r : BitVec 32) : Statement (.jbRel32 p r) := encodeOp_length p _
theorem jcRel32 (p : Prefixes) (r : BitVec 32) : Statement (.jcRel32 p r) := encodeOp_length p _
theorem jnaeRel32 (p : Prefixes) (r : BitVec 32) : Statement (.jnaeRel32 p r) := encodeOp_length p _
theorem jaeRel32 (p : Prefixes) (r : BitVec 32) : Statement (.jaeRel32 p r) := encodeOp_length p _
theorem jnbRel32 (p : Prefixes) (r : BitVec 32) : Statement (.jnbRel32 p r) := encodeOp_length p _
theorem jncRel32 (p : Prefixes) (r : BitVec 32) : Statement (.jncRel32 p r) := encodeOp_length p _
theorem jeRel32 (p : Prefixes) (r : BitVec 32) : Statement (.jeRel32 p r) := encodeOp_length p _
theorem jzRel32 (p : Prefixes) (r : BitVec 32) : Statement (.jzRel32 p r) := encodeOp_length p _
theorem jneRel32 (p : Prefixes) (r : BitVec 32) : Statement (.jneRel32 p r) := encodeOp_length p _
theorem jnzRel32 (p : Prefixes) (r : BitVec 32) : Statement (.jnzRel32 p r) := encodeOp_length p _
theorem jbeRel32 (p : Prefixes) (r : BitVec 32) : Statement (.jbeRel32 p r) := encodeOp_length p _
theorem jnaRel32 (p : Prefixes) (r : BitVec 32) : Statement (.jnaRel32 p r) := encodeOp_length p _
theorem jaRel32 (p : Prefixes) (r : BitVec 32) : Statement (.jaRel32 p r) := encodeOp_length p _
theorem jnbeRel32 (p : Prefixes) (r : BitVec 32) : Statement (.jnbeRel32 p r) := encodeOp_length p _
theorem jsRel32 (p : Prefixes) (r : BitVec 32) : Statement (.jsRel32 p r) := encodeOp_length p _
theorem jnsRel32 (p : Prefixes) (r : BitVec 32) : Statement (.jnsRel32 p r) := encodeOp_length p _
theorem jpRel32 (p : Prefixes) (r : BitVec 32) : Statement (.jpRel32 p r) := encodeOp_length p _
theorem jpeRel32 (p : Prefixes) (r : BitVec 32) : Statement (.jpeRel32 p r) := encodeOp_length p _
theorem jnpRel32 (p : Prefixes) (r : BitVec 32) : Statement (.jnpRel32 p r) := encodeOp_length p _
theorem jpoRel32 (p : Prefixes) (r : BitVec 32) : Statement (.jpoRel32 p r) := encodeOp_length p _
theorem jlRel32 (p : Prefixes) (r : BitVec 32) : Statement (.jlRel32 p r) := encodeOp_length p _
theorem jngeRel32 (p : Prefixes) (r : BitVec 32) : Statement (.jngeRel32 p r) := encodeOp_length p _
theorem jgeRel32 (p : Prefixes) (r : BitVec 32) : Statement (.jgeRel32 p r) := encodeOp_length p _
theorem jnlRel32 (p : Prefixes) (r : BitVec 32) : Statement (.jnlRel32 p r) := encodeOp_length p _
theorem jleRel32 (p : Prefixes) (r : BitVec 32) : Statement (.jleRel32 p r) := encodeOp_length p _
theorem jngRel32 (p : Prefixes) (r : BitVec 32) : Statement (.jngRel32 p r) := encodeOp_length p _
theorem jgRel32 (p : Prefixes) (r : BitVec 32) : Statement (.jgRel32 p r) := encodeOp_length p _
theorem jnleRel32 (p : Prefixes) (r : BitVec 32) : Statement (.jnleRel32 p r) := encodeOp_length p _

end Sys2Proof.Laws.EncodedLength
end

