-- ==== Sys2Proof/Tests/Slice0.lean ====
section
/-! SUPPORT. The tests of the model: well-formedness, decoding, encoding, one step on the vectors of 95_test_vectors.md,
the table's words, and for every statement with hypotheses a theorem `witness_<its name>` with a concrete state and
operands that meet them. Words and outcomes are the spec's (30_encoding.md R43 to R58; 95_test_vectors.md). -/

namespace Sys2Proof.Tests

open Machine

/-! ### Configurations and states -/

abbrev prot32 : Config := ⟨.protectedMode, .bits32, .bits32, 0xFFFFFFFF#32, 48⟩
abbrev protLow : Config := ⟨.protectedMode, .bits32, .bits32, 0x00001001#32, 48⟩
abbrev compat32 : Config := ⟨.compat, .bits32, .bits32, 0xFFFFFFFF#32, 48⟩
abbrev compatLow : Config := ⟨.compat, .bits32, .bits32, 0x00001001#32, 48⟩
abbrev real16 : Config := ⟨.real, .bits16, .bits16, 0x0000FFFF#32, 48⟩
abbrev realLow : Config := ⟨.real, .bits16, .bits16, 0x00001003#32, 48⟩
abbrev realBig : Config := ⟨.real, .bits32, .bits32, 0xFFFFFFFF#32, 48⟩
abbrev v86 : Config := ⟨.v8086, .bits16, .bits16, 0x0000FFFF#32, 48⟩
abbrev v86Big : Config := ⟨.v8086, .bits32, .bits32, 0xFFFFFFFF#32, 48⟩
abbrev long48 : Config := ⟨.long64, .bits32, .bits32, 0x00000000#32, 48⟩

/-- A state with its flags given as `CF PF ZF SF OF`, the bytes `bs` at `ip` and nothing else in the image. -/
abbrev stateAt (c : Config) (a : Offset) (fl : BitVec 5) (rcx : BitVec 64) (bs : List Byte) : State where
  ip := a
  CF := fl.getLsbD 4
  PF := fl.getLsbD 3
  ZF := fl.getLsbD 2
  SF := fl.getLsbD 1
  OF := fl.getLsbD 0
  RCX := rcx
  config := c
  code := writeBytes c [] a bs
  exits := []

/-! ### Well-formedness: an ill-formed term for each check, and the accepted one beside it -/

theorem test_wf_leading_byte_twice :
    Instr.wf prot32 (.jaRel8 [.lock, .lock] 0#8) = false ∧ Instr.wf prot32 (.jaRel8 [.lock, .opSize] 0#8) = true := by decide

theorem test_wf_count_register_by_address_size :
    Instr.wf long48 (.jcxz [.addrSize] 0#8) = false ∧ Instr.wf prot32 (.jcxz [.addrSize] 0#8) = true ∧
    Instr.wf long48 (.jecxz [] 0#8) = false ∧ Instr.wf long48 (.jecxz [.addrSize] 0#8) = true ∧
    Instr.wf prot32 (.jrcxz [] 0#8) = false ∧ Instr.wf long48 (.jrcxz [] 0#8) = true := by decide

theorem test_wf_rel16_needs_operand_size_16 :
    Instr.wf long48 (.jeRel16 [] 0#16) = false ∧ Instr.wf prot32 (.jeRel16 [] 0#16) = false ∧
    Instr.wf prot32 (.jeRel16 [.opSize] 0#16) = true ∧ Instr.wf real16 (.jeRel16 [] 0#16) = true := by decide

theorem test_wf_rel32_needs_operand_size_32_or_64 :
    Instr.wf real16 (.jeRel32 [] 0#32) = false ∧ Instr.wf long48 (.jeRel32 [.opSize] 0#32) = false ∧
    Instr.wf real16 (.jeRel32 [.opSize] 0#32) = true ∧ Instr.wf long48 (.jeRel32 [] 0#32) = true := by decide

/-! ### Decoding: every constructor's word written out from R44 to R47 and R57; an alias is read as the first mnemonic
of its opcode (R61) -/

theorem test_decode_short_rows :
    decode prot32 [0x70#8, 0x10#8] = .ok (.joRel8 [] 0x10#8) [] ∧
    decode prot32 [0x71#8, 0x10#8] = .ok (.jnoRel8 [] 0x10#8) [] ∧
    decode prot32 [0x72#8, 0x10#8] = .ok (.jbRel8 [] 0x10#8) [] ∧
    decode prot32 [0x73#8, 0x10#8] = .ok (.jaeRel8 [] 0x10#8) [] ∧
    decode prot32 [0x74#8, 0x10#8] = .ok (.jeRel8 [] 0x10#8) [] ∧
    decode prot32 [0x75#8, 0x10#8] = .ok (.jneRel8 [] 0x10#8) [] ∧
    decode prot32 [0x76#8, 0x10#8] = .ok (.jbeRel8 [] 0x10#8) [] ∧
    decode prot32 [0x77#8, 0x10#8] = .ok (.jaRel8 [] 0x10#8) [] ∧
    decode prot32 [0x78#8, 0x10#8] = .ok (.jsRel8 [] 0x10#8) [] ∧
    decode prot32 [0x79#8, 0x10#8] = .ok (.jnsRel8 [] 0x10#8) [] ∧
    decode prot32 [0x7A#8, 0x10#8] = .ok (.jpRel8 [] 0x10#8) [] ∧
    decode prot32 [0x7B#8, 0x10#8] = .ok (.jnpRel8 [] 0x10#8) [] ∧
    decode prot32 [0x7C#8, 0x10#8] = .ok (.jlRel8 [] 0x10#8) [] ∧
    decode prot32 [0x7D#8, 0x10#8] = .ok (.jgeRel8 [] 0x10#8) [] ∧
    decode prot32 [0x7E#8, 0x10#8] = .ok (.jleRel8 [] 0x10#8) [] ∧
    decode prot32 [0x7F#8, 0x10#8] = .ok (.jgRel8 [] 0x10#8) [] := by decide

theorem test_decode_short_alias_rows :
    decode prot32 [0x72#8, 0xF0#8] = .ok (Instr.canonical (.jcRel8 [] 0xF0#8)) [] ∧
    decode prot32 [0x72#8, 0xF0#8] = .ok (Instr.canonical (.jnaeRel8 [] 0xF0#8)) [] ∧
    decode prot32 [0x73#8, 0xF0#8] = .ok (Instr.canonical (.jnbRel8 [] 0xF0#8)) [] ∧
    decode prot32 [0x73#8, 0xF0#8] = .ok (Instr.canonical (.jncRel8 [] 0xF0#8)) [] ∧
    decode prot32 [0x74#8, 0xF0#8] = .ok (Instr.canonical (.jzRel8 [] 0xF0#8)) [] ∧
    decode prot32 [0x75#8, 0xF0#8] = .ok (Instr.canonical (.jnzRel8 [] 0xF0#8)) [] ∧
    decode prot32 [0x76#8, 0xF0#8] = .ok (Instr.canonical (.jnaRel8 [] 0xF0#8)) [] ∧
    decode prot32 [0x77#8, 0xF0#8] = .ok (Instr.canonical (.jnbeRel8 [] 0xF0#8)) [] ∧
    decode prot32 [0x7A#8, 0xF0#8] = .ok (Instr.canonical (.jpeRel8 [] 0xF0#8)) [] ∧
    decode prot32 [0x7B#8, 0xF0#8] = .ok (Instr.canonical (.jpoRel8 [] 0xF0#8)) [] ∧
    decode prot32 [0x7C#8, 0xF0#8] = .ok (Instr.canonical (.jngeRel8 [] 0xF0#8)) [] ∧
    decode prot32 [0x7D#8, 0xF0#8] = .ok (Instr.canonical (.jnlRel8 [] 0xF0#8)) [] ∧
    decode prot32 [0x7E#8, 0xF0#8] = .ok (Instr.canonical (.jngRel8 [] 0xF0#8)) [] ∧
    decode prot32 [0x7F#8, 0xF0#8] = .ok (Instr.canonical (.jnleRel8 [] 0xF0#8)) [] := by decide

theorem test_decode_count_rows :
    decode real16 [0xE3#8, 0x10#8] = .ok (.jcxz [] 0x10#8) [] ∧
    decode real16 [0x67#8, 0xE3#8, 0x10#8] = .ok (.jecxz [.addrSize] 0x10#8) [] ∧
    decode long48 [0xE3#8, 0x80#8] = .ok (.jrcxz [] 0x80#8) [] ∧
    decode long48 [0x67#8, 0xE3#8, 0x80#8] = .ok (.jecxz [.addrSize] 0x80#8) [] := by decide

theorem test_decode_near16_rows :
    decode real16 [0x0F#8, 0x80#8, 0x34#8, 0x12#8] = .ok (.joRel16 [] 0x1234#16) [] ∧
    decode real16 [0x0F#8, 0x81#8, 0x34#8, 0x12#8] = .ok (.jnoRel16 [] 0x1234#16) [] ∧
    decode real16 [0x0F#8, 0x82#8, 0x34#8, 0x12#8] = .ok (.jbRel16 [] 0x1234#16) [] ∧
    decode real16 [0x0F#8, 0x83#8, 0x34#8, 0x12#8] = .ok (.jaeRel16 [] 0x1234#16) [] ∧
    decode real16 [0x0F#8, 0x84#8, 0x34#8, 0x12#8] = .ok (.jeRel16 [] 0x1234#16) [] ∧
    decode real16 [0x0F#8, 0x85#8, 0x34#8, 0x12#8] = .ok (.jneRel16 [] 0x1234#16) [] ∧
    decode real16 [0x0F#8, 0x86#8, 0x34#8, 0x12#8] = .ok (.jbeRel16 [] 0x1234#16) [] ∧
    decode real16 [0x0F#8, 0x87#8, 0x34#8, 0x12#8] = .ok (.jaRel16 [] 0x1234#16) [] ∧
    decode real16 [0x0F#8, 0x88#8, 0x34#8, 0x12#8] = .ok (.jsRel16 [] 0x1234#16) [] ∧
    decode real16 [0x0F#8, 0x89#8, 0x34#8, 0x12#8] = .ok (.jnsRel16 [] 0x1234#16) [] ∧
    decode real16 [0x0F#8, 0x8A#8, 0x34#8, 0x12#8] = .ok (.jpRel16 [] 0x1234#16) [] ∧
    decode real16 [0x0F#8, 0x8B#8, 0x34#8, 0x12#8] = .ok (.jnpRel16 [] 0x1234#16) [] ∧
    decode real16 [0x0F#8, 0x8C#8, 0x34#8, 0x12#8] = .ok (.jlRel16 [] 0x1234#16) [] ∧
    decode real16 [0x0F#8, 0x8D#8, 0x34#8, 0x12#8] = .ok (.jgeRel16 [] 0x1234#16) [] ∧
    decode real16 [0x0F#8, 0x8E#8, 0x34#8, 0x12#8] = .ok (.jleRel16 [] 0x1234#16) [] ∧
    decode real16 [0x0F#8, 0x8F#8, 0x34#8, 0x12#8] = .ok (.jgRel16 [] 0x1234#16) [] := by decide

theorem test_decode_near16_alias_rows :
    decode prot32 [0x66#8, 0x0F#8, 0x82#8, 0xFE#8, 0xFF#8] = .ok (Instr.canonical (.jcRel16 [.opSize] 0xFFFE#16)) [] ∧
    decode prot32 [0x66#8, 0x0F#8, 0x82#8, 0xFE#8, 0xFF#8] = .ok (Instr.canonical (.jnaeRel16 [.opSize] 0xFFFE#16)) [] ∧
    decode prot32 [0x66#8, 0x0F#8, 0x83#8, 0xFE#8, 0xFF#8] = .ok (Instr.canonical (.jnbRel16 [.opSize] 0xFFFE#16)) [] ∧
    decode prot32 [0x66#8, 0x0F#8, 0x83#8, 0xFE#8, 0xFF#8] = .ok (Instr.canonical (.jncRel16 [.opSize] 0xFFFE#16)) [] ∧
    decode prot32 [0x66#8, 0x0F#8, 0x84#8, 0xFE#8, 0xFF#8] = .ok (Instr.canonical (.jzRel16 [.opSize] 0xFFFE#16)) [] ∧
    decode prot32 [0x66#8, 0x0F#8, 0x85#8, 0xFE#8, 0xFF#8] = .ok (Instr.canonical (.jnzRel16 [.opSize] 0xFFFE#16)) [] ∧
    decode prot32 [0x66#8, 0x0F#8, 0x86#8, 0xFE#8, 0xFF#8] = .ok (Instr.canonical (.jnaRel16 [.opSize] 0xFFFE#16)) [] ∧
    decode prot32 [0x66#8, 0x0F#8, 0x87#8, 0xFE#8, 0xFF#8] = .ok (Instr.canonical (.jnbeRel16 [.opSize] 0xFFFE#16)) [] ∧
    decode prot32 [0x66#8, 0x0F#8, 0x8A#8, 0xFE#8, 0xFF#8] = .ok (Instr.canonical (.jpeRel16 [.opSize] 0xFFFE#16)) [] ∧
    decode prot32 [0x66#8, 0x0F#8, 0x8B#8, 0xFE#8, 0xFF#8] = .ok (Instr.canonical (.jpoRel16 [.opSize] 0xFFFE#16)) [] ∧
    decode prot32 [0x66#8, 0x0F#8, 0x8C#8, 0xFE#8, 0xFF#8] = .ok (Instr.canonical (.jngeRel16 [.opSize] 0xFFFE#16)) [] ∧
    decode prot32 [0x66#8, 0x0F#8, 0x8D#8, 0xFE#8, 0xFF#8] = .ok (Instr.canonical (.jnlRel16 [.opSize] 0xFFFE#16)) [] ∧
    decode prot32 [0x66#8, 0x0F#8, 0x8E#8, 0xFE#8, 0xFF#8] = .ok (Instr.canonical (.jngRel16 [.opSize] 0xFFFE#16)) [] ∧
    decode prot32 [0x66#8, 0x0F#8, 0x8F#8, 0xFE#8, 0xFF#8] = .ok (Instr.canonical (.jnleRel16 [.opSize] 0xFFFE#16)) [] := by decide

theorem test_decode_near32_rows :
    decode prot32 [0x0F#8, 0x80#8, 0x78#8, 0x56#8, 0x34#8, 0x12#8] = .ok (.joRel32 [] 0x12345678#32) [] ∧
    decode prot32 [0x0F#8, 0x81#8, 0x78#8, 0x56#8, 0x34#8, 0x12#8] = .ok (.jnoRel32 [] 0x12345678#32) [] ∧
    decode prot32 [0x0F#8, 0x82#8, 0x78#8, 0x56#8, 0x34#8, 0x12#8] = .ok (.jbRel32 [] 0x12345678#32) [] ∧
    decode prot32 [0x0F#8, 0x83#8, 0x78#8, 0x56#8, 0x34#8, 0x12#8] = .ok (.jaeRel32 [] 0x12345678#32) [] ∧
    decode prot32 [0x0F#8, 0x84#8, 0x78#8, 0x56#8, 0x34#8, 0x12#8] = .ok (.jeRel32 [] 0x12345678#32) [] ∧
    decode prot32 [0x0F#8, 0x85#8, 0x78#8, 0x56#8, 0x34#8, 0x12#8] = .ok (.jneRel32 [] 0x12345678#32) [] ∧
    decode prot32 [0x0F#8, 0x86#8, 0x78#8, 0x56#8, 0x34#8, 0x12#8] = .ok (.jbeRel32 [] 0x12345678#32) [] ∧
    decode prot32 [0x0F#8, 0x87#8, 0x78#8, 0x56#8, 0x34#8, 0x12#8] = .ok (.jaRel32 [] 0x12345678#32) [] ∧
    decode prot32 [0x0F#8, 0x88#8, 0x78#8, 0x56#8, 0x34#8, 0x12#8] = .ok (.jsRel32 [] 0x12345678#32) [] ∧
    decode prot32 [0x0F#8, 0x89#8, 0x78#8, 0x56#8, 0x34#8, 0x12#8] = .ok (.jnsRel32 [] 0x12345678#32) [] ∧
    decode prot32 [0x0F#8, 0x8A#8, 0x78#8, 0x56#8, 0x34#8, 0x12#8] = .ok (.jpRel32 [] 0x12345678#32) [] ∧
    decode prot32 [0x0F#8, 0x8B#8, 0x78#8, 0x56#8, 0x34#8, 0x12#8] = .ok (.jnpRel32 [] 0x12345678#32) [] ∧
    decode prot32 [0x0F#8, 0x8C#8, 0x78#8, 0x56#8, 0x34#8, 0x12#8] = .ok (.jlRel32 [] 0x12345678#32) [] ∧
    decode prot32 [0x0F#8, 0x8D#8, 0x78#8, 0x56#8, 0x34#8, 0x12#8] = .ok (.jgeRel32 [] 0x12345678#32) [] ∧
    decode prot32 [0x0F#8, 0x8E#8, 0x78#8, 0x56#8, 0x34#8, 0x12#8] = .ok (.jleRel32 [] 0x12345678#32) [] ∧
    decode prot32 [0x0F#8, 0x8F#8, 0x78#8, 0x56#8, 0x34#8, 0x12#8] = .ok (.jgRel32 [] 0x12345678#32) [] := by decide

theorem test_decode_near32_alias_rows :
    decode long48 [0x0F#8, 0x82#8, 0xFA#8, 0xFF#8, 0xFF#8, 0xFF#8] = .ok (Instr.canonical (.jcRel32 [] 0xFFFFFFFA#32)) [] ∧
    decode long48 [0x0F#8, 0x82#8, 0xFA#8, 0xFF#8, 0xFF#8, 0xFF#8] = .ok (Instr.canonical (.jnaeRel32 [] 0xFFFFFFFA#32)) [] ∧
    decode long48 [0x0F#8, 0x83#8, 0xFA#8, 0xFF#8, 0xFF#8, 0xFF#8] = .ok (Instr.canonical (.jnbRel32 [] 0xFFFFFFFA#32)) [] ∧
    decode long48 [0x0F#8, 0x83#8, 0xFA#8, 0xFF#8, 0xFF#8, 0xFF#8] = .ok (Instr.canonical (.jncRel32 [] 0xFFFFFFFA#32)) [] ∧
    decode long48 [0x0F#8, 0x84#8, 0xFA#8, 0xFF#8, 0xFF#8, 0xFF#8] = .ok (Instr.canonical (.jzRel32 [] 0xFFFFFFFA#32)) [] ∧
    decode long48 [0x0F#8, 0x85#8, 0xFA#8, 0xFF#8, 0xFF#8, 0xFF#8] = .ok (Instr.canonical (.jnzRel32 [] 0xFFFFFFFA#32)) [] ∧
    decode long48 [0x0F#8, 0x86#8, 0xFA#8, 0xFF#8, 0xFF#8, 0xFF#8] = .ok (Instr.canonical (.jnaRel32 [] 0xFFFFFFFA#32)) [] ∧
    decode long48 [0x0F#8, 0x87#8, 0xFA#8, 0xFF#8, 0xFF#8, 0xFF#8] = .ok (Instr.canonical (.jnbeRel32 [] 0xFFFFFFFA#32)) [] ∧
    decode long48 [0x0F#8, 0x8A#8, 0xFA#8, 0xFF#8, 0xFF#8, 0xFF#8] = .ok (Instr.canonical (.jpeRel32 [] 0xFFFFFFFA#32)) [] ∧
    decode long48 [0x0F#8, 0x8B#8, 0xFA#8, 0xFF#8, 0xFF#8, 0xFF#8] = .ok (Instr.canonical (.jpoRel32 [] 0xFFFFFFFA#32)) [] ∧
    decode long48 [0x0F#8, 0x8C#8, 0xFA#8, 0xFF#8, 0xFF#8, 0xFF#8] = .ok (Instr.canonical (.jngeRel32 [] 0xFFFFFFFA#32)) [] ∧
    decode long48 [0x0F#8, 0x8D#8, 0xFA#8, 0xFF#8, 0xFF#8, 0xFF#8] = .ok (Instr.canonical (.jnlRel32 [] 0xFFFFFFFA#32)) [] ∧
    decode long48 [0x0F#8, 0x8E#8, 0xFA#8, 0xFF#8, 0xFF#8, 0xFF#8] = .ok (Instr.canonical (.jngRel32 [] 0xFFFFFFFA#32)) [] ∧
    decode long48 [0x0F#8, 0x8F#8, 0xFA#8, 0xFF#8, 0xFF#8, 0xFF#8] = .ok (Instr.canonical (.jnleRel32 [] 0xFFFFFFFA#32)) [] := by decide

theorem test_canonical_aliases :
    Instr.canonical (.jcRel8 [] 1#8) = .jbRel8 [] 1#8 ∧ Instr.canonical (.jnaeRel8 [] 1#8) = .jbRel8 [] 1#8 ∧
    Instr.canonical (.jnbRel8 [] 1#8) = .jaeRel8 [] 1#8 ∧ Instr.canonical (.jncRel8 [] 1#8) = .jaeRel8 [] 1#8 ∧
    Instr.canonical (.jzRel8 [] 1#8) = .jeRel8 [] 1#8 ∧ Instr.canonical (.jnzRel8 [] 1#8) = .jneRel8 [] 1#8 ∧
    Instr.canonical (.jnaRel8 [] 1#8) = .jbeRel8 [] 1#8 ∧ Instr.canonical (.jnbeRel8 [] 1#8) = .jaRel8 [] 1#8 ∧
    Instr.canonical (.jpeRel8 [] 1#8) = .jpRel8 [] 1#8 ∧ Instr.canonical (.jpoRel8 [] 1#8) = .jnpRel8 [] 1#8 ∧
    Instr.canonical (.jngeRel8 [] 1#8) = .jlRel8 [] 1#8 ∧ Instr.canonical (.jnlRel8 [] 1#8) = .jgeRel8 [] 1#8 ∧
    Instr.canonical (.jngRel8 [] 1#8) = .jleRel8 [] 1#8 ∧
    Instr.canonical (.jnleRel8 [] 1#8) = .jgRel8 [] 1#8 := by decide

theorem test_encode_rows :
    encode (.jnbeRel8 [] 0x10#8) = [0x77#8, 0x10#8] ∧ encode (.jrcxz [.lock] 0x80#8) = [0xF0#8, 0xE3#8, 0x80#8] ∧
    encode (.jnleRel16 [.opSize] 0x1234#16) = [0x66#8, 0x0F#8, 0x8F#8, 0x34#8, 0x12#8] ∧
    encode (.joRel32 [.addrSize, .lock] 0x12345678#32) = [0x67#8, 0xF0#8, 0x0F#8, 0x80#8, 0x78#8, 0x56#8, 0x34#8, 0x12#8] := by decide

theorem test_decode_refusals :
    decode prot32 [0x90#8] = .refused .opcodeOutOfScope ∧
    decode prot32 [0xEB#8, 0x10#8] = .refused .opcodeOutOfScope ∧
    decode prot32 [0x0F#8, 0x90#8, 0x00#8] = .refused .opcodeOutOfScope ∧
    decode prot32 [0x0F#8, 0x7F#8] = .refused .opcodeOutOfScope ∧
    decode prot32 [0x2E#8, 0x74#8, 0x10#8] = .refused .opcodeOutOfScope ∧
    decode prot32 [0xF3#8, 0x74#8, 0x10#8] = .refused .opcodeOutOfScope ∧
    decode prot32 [0x6F#8] = .refused .opcodeOutOfScope ∧ decode prot32 [0x80#8] = .refused .opcodeOutOfScope ∧
    decode prot32 [0xE2#8, 0x00#8] = .refused .opcodeOutOfScope ∧
    decode prot32 [0xE4#8, 0x00#8] = .refused .opcodeOutOfScope ∧
    decode prot32 [0x66#8, 0x66#8, 0x74#8, 0x10#8] = .refused .duplicatePrefix ∧
    decode prot32 [0xF0#8, 0x67#8, 0xF0#8] = .refused .duplicatePrefix ∧
    decode long48 [0x66#8, 0x0F#8, 0x84#8] = .refused .nearJccWith66HIn64BitMode ∧
    decode long48 [0x48#8, 0x74#8, 0x10#8] = .refused .opcodeOutOfScope ∧
    decode prot32 [0xF0#8, 0x0F#8, 0x84#8, 0x01#8, 0x02#8, 0x03#8] = .short := by decide

/-! ### One step: vectors of 95_test_vectors.md, by their numbers -/

theorem test_jo_rel8_S1_S2 :
    ipAfter (step (stateAt prot32 0x1000#64 0b00001#5 0x0#64 [0x70#8, 0x10#8])) =
      some 0x1012#64 ∧
    ipAfter (step (stateAt prot32 0x1000#64 0b00000#5 0x0#64 [0x70#8, 0x10#8])) =
      some 0x1002#64 := by decide

theorem test_jno_rel8_S3_S4 :
    ipAfter (step (stateAt prot32 0x1000#64 0b00000#5 0x0#64 [0x71#8, 0x10#8])) =
      some 0x1012#64 ∧
    ipAfter (step (stateAt prot32 0x1000#64 0b00001#5 0x0#64 [0x71#8, 0x10#8])) =
      some 0x1002#64 := by decide

theorem test_jb_rel8_S5_S6 :
    ipAfter (step (stateAt prot32 0x1000#64 0b10000#5 0x0#64 [0x72#8, 0x10#8])) =
      some 0x1012#64 ∧
    ipAfter (step (stateAt prot32 0x1000#64 0b00000#5 0x0#64 [0x72#8, 0x10#8])) =
      some 0x1002#64 := by decide

theorem test_jae_rel8_S7_S8 :
    ipAfter (step (stateAt prot32 0x1000#64 0b00000#5 0x0#64 [0x73#8, 0x10#8])) =
      some 0x1012#64 ∧
    ipAfter (step (stateAt prot32 0x1000#64 0b10000#5 0x0#64 [0x73#8, 0x10#8])) =
      some 0x1002#64 := by decide

theorem test_je_rel8_S9_S10 :
    ipAfter (step (stateAt prot32 0x1000#64 0b00100#5 0x0#64 [0x74#8, 0x10#8])) =
      some 0x1012#64 ∧
    ipAfter (step (stateAt prot32 0x1000#64 0b00000#5 0x0#64 [0x74#8, 0x10#8])) =
      some 0x1002#64 := by decide

theorem test_jne_rel8_S11_S12 :
    ipAfter (step (stateAt prot32 0x1000#64 0b00000#5 0x0#64 [0x75#8, 0x10#8])) =
      some 0x1012#64 ∧
    ipAfter (step (stateAt prot32 0x1000#64 0b00100#5 0x0#64 [0x75#8, 0x10#8])) =
      some 0x1002#64 := by decide

theorem test_jbe_rel8_S13_S14 :
    ipAfter (step (stateAt prot32 0x1000#64 0b00100#5 0x0#64 [0x76#8, 0x10#8])) =
      some 0x1012#64 ∧
    ipAfter (step (stateAt prot32 0x1000#64 0b00000#5 0x0#64 [0x76#8, 0x10#8])) =
      some 0x1002#64 := by decide

theorem test_ja_rel8_S15_S16 :
    ipAfter (step (stateAt prot32 0x1000#64 0b00000#5 0x0#64 [0x77#8, 0x10#8])) =
      some 0x1012#64 ∧
    ipAfter (step (stateAt prot32 0x1000#64 0b00100#5 0x0#64 [0x77#8, 0x10#8])) =
      some 0x1002#64 := by decide

theorem test_js_rel8_S17_S18 :
    ipAfter (step (stateAt prot32 0x1000#64 0b00010#5 0x0#64 [0x78#8, 0x10#8])) =
      some 0x1012#64 ∧
    ipAfter (step (stateAt prot32 0x1000#64 0b00000#5 0x0#64 [0x78#8, 0x10#8])) =
      some 0x1002#64 := by decide

theorem test_jns_rel8_S19_S20 :
    ipAfter (step (stateAt prot32 0x1000#64 0b00000#5 0x0#64 [0x79#8, 0x10#8])) =
      some 0x1012#64 ∧
    ipAfter (step (stateAt prot32 0x1000#64 0b00010#5 0x0#64 [0x79#8, 0x10#8])) =
      some 0x1002#64 := by decide

theorem test_jp_rel8_S21_S22 :
    ipAfter (step (stateAt prot32 0x1000#64 0b01000#5 0x0#64 [0x7A#8, 0x10#8])) =
      some 0x1012#64 ∧
    ipAfter (step (stateAt prot32 0x1000#64 0b00000#5 0x0#64 [0x7A#8, 0x10#8])) =
      some 0x1002#64 := by decide

theorem test_jnp_rel8_S23_S24 :
    ipAfter (step (stateAt prot32 0x1000#64 0b00000#5 0x0#64 [0x7B#8, 0x10#8])) =
      some 0x1012#64 ∧
    ipAfter (step (stateAt prot32 0x1000#64 0b01000#5 0x0#64 [0x7B#8, 0x10#8])) =
      some 0x1002#64 := by decide

theorem test_jl_rel8_S25_S26 :
    ipAfter (step (stateAt prot32 0x1000#64 0b00001#5 0x0#64 [0x7C#8, 0x10#8])) =
      some 0x1012#64 ∧
    ipAfter (step (stateAt prot32 0x1000#64 0b00000#5 0x0#64 [0x7C#8, 0x10#8])) =
      some 0x1002#64 := by decide

theorem test_jge_rel8_S27_S28 :
    ipAfter (step (stateAt prot32 0x1000#64 0b00000#5 0x0#64 [0x7D#8, 0x10#8])) =
      some 0x1012#64 ∧
    ipAfter (step (stateAt prot32 0x1000#64 0b00001#5 0x0#64 [0x7D#8, 0x10#8])) =
      some 0x1002#64 := by decide

theorem test_jle_rel8_S29_S30 :
    ipAfter (step (stateAt prot32 0x1000#64 0b00001#5 0x0#64 [0x7E#8, 0x10#8])) =
      some 0x1012#64 ∧
    ipAfter (step (stateAt prot32 0x1000#64 0b00000#5 0x0#64 [0x7E#8, 0x10#8])) =
      some 0x1002#64 := by decide

theorem test_jg_rel8_S31_S32 :
    ipAfter (step (stateAt prot32 0x1000#64 0b00000#5 0x0#64 [0x7F#8, 0x10#8])) =
      some 0x1012#64 ∧
    ipAfter (step (stateAt prot32 0x1000#64 0b00001#5 0x0#64 [0x7F#8, 0x10#8])) =
      some 0x1002#64 := by decide

theorem test_jo_near_N16_1_N32_1 :
    ipAfter (step (stateAt real16 0x100#64 0b00001#5 0x0#64 [0x0F#8, 0x80#8, 0x34#8, 0x12#8])) =
      some 0x1338#64 ∧
    ipAfter (step (stateAt prot32 0x1000#64 0b00001#5 0x0#64 [0x0F#8, 0x80#8, 0x78#8, 0x56#8, 0x34#8, 0x12#8])) =
      some 0x1234667E#64 := by decide

theorem test_jno_near_N16_3_N32_3 :
    ipAfter (step (stateAt real16 0x100#64 0b00000#5 0x0#64 [0x0F#8, 0x81#8, 0x34#8, 0x12#8])) =
      some 0x1338#64 ∧
    ipAfter (step (stateAt prot32 0x1000#64 0b00000#5 0x0#64 [0x0F#8, 0x81#8, 0x78#8, 0x56#8, 0x34#8, 0x12#8])) =
      some 0x1234667E#64 := by decide

theorem test_jb_near_N16_5_N32_5 :
    ipAfter (step (stateAt real16 0x100#64 0b10000#5 0x0#64 [0x0F#8, 0x82#8, 0x34#8, 0x12#8])) =
      some 0x1338#64 ∧
    ipAfter (step (stateAt prot32 0x1000#64 0b10000#5 0x0#64 [0x0F#8, 0x82#8, 0x78#8, 0x56#8, 0x34#8, 0x12#8])) =
      some 0x1234667E#64 := by decide

theorem test_jae_near_N16_7_N32_7 :
    ipAfter (step (stateAt real16 0x100#64 0b00000#5 0x0#64 [0x0F#8, 0x83#8, 0x34#8, 0x12#8])) =
      some 0x1338#64 ∧
    ipAfter (step (stateAt prot32 0x1000#64 0b00000#5 0x0#64 [0x0F#8, 0x83#8, 0x78#8, 0x56#8, 0x34#8, 0x12#8])) =
      some 0x1234667E#64 := by decide

theorem test_je_near_N16_9_N32_9 :
    ipAfter (step (stateAt real16 0x100#64 0b00100#5 0x0#64 [0x0F#8, 0x84#8, 0x34#8, 0x12#8])) =
      some 0x1338#64 ∧
    ipAfter (step (stateAt prot32 0x1000#64 0b00100#5 0x0#64 [0x0F#8, 0x84#8, 0x78#8, 0x56#8, 0x34#8, 0x12#8])) =
      some 0x1234667E#64 := by decide

theorem test_jne_near_N16_11_N32_11 :
    ipAfter (step (stateAt real16 0x100#64 0b00000#5 0x0#64 [0x0F#8, 0x85#8, 0x34#8, 0x12#8])) =
      some 0x1338#64 ∧
    ipAfter (step (stateAt prot32 0x1000#64 0b00000#5 0x0#64 [0x0F#8, 0x85#8, 0x78#8, 0x56#8, 0x34#8, 0x12#8])) =
      some 0x1234667E#64 := by decide

theorem test_jbe_near_N16_13_N32_13 :
    ipAfter (step (stateAt real16 0x100#64 0b00100#5 0x0#64 [0x0F#8, 0x86#8, 0x34#8, 0x12#8])) =
      some 0x1338#64 ∧
    ipAfter (step (stateAt prot32 0x1000#64 0b00100#5 0x0#64 [0x0F#8, 0x86#8, 0x78#8, 0x56#8, 0x34#8, 0x12#8])) =
      some 0x1234667E#64 := by decide

theorem test_ja_near_N16_15_N32_15 :
    ipAfter (step (stateAt real16 0x100#64 0b00000#5 0x0#64 [0x0F#8, 0x87#8, 0x34#8, 0x12#8])) =
      some 0x1338#64 ∧
    ipAfter (step (stateAt prot32 0x1000#64 0b00000#5 0x0#64 [0x0F#8, 0x87#8, 0x78#8, 0x56#8, 0x34#8, 0x12#8])) =
      some 0x1234667E#64 := by decide

theorem test_js_near_N16_17_N32_17 :
    ipAfter (step (stateAt real16 0x100#64 0b00010#5 0x0#64 [0x0F#8, 0x88#8, 0x34#8, 0x12#8])) =
      some 0x1338#64 ∧
    ipAfter (step (stateAt prot32 0x1000#64 0b00010#5 0x0#64 [0x0F#8, 0x88#8, 0x78#8, 0x56#8, 0x34#8, 0x12#8])) =
      some 0x1234667E#64 := by decide

theorem test_jns_near_N16_19_N32_19 :
    ipAfter (step (stateAt real16 0x100#64 0b00000#5 0x0#64 [0x0F#8, 0x89#8, 0x34#8, 0x12#8])) =
      some 0x1338#64 ∧
    ipAfter (step (stateAt prot32 0x1000#64 0b00000#5 0x0#64 [0x0F#8, 0x89#8, 0x78#8, 0x56#8, 0x34#8, 0x12#8])) =
      some 0x1234667E#64 := by decide

theorem test_jp_near_N16_21_N32_21 :
    ipAfter (step (stateAt real16 0x100#64 0b01000#5 0x0#64 [0x0F#8, 0x8A#8, 0x34#8, 0x12#8])) =
      some 0x1338#64 ∧
    ipAfter (step (stateAt prot32 0x1000#64 0b01000#5 0x0#64 [0x0F#8, 0x8A#8, 0x78#8, 0x56#8, 0x34#8, 0x12#8])) =
      some 0x1234667E#64 := by decide

theorem test_jnp_near_N16_23_N32_23 :
    ipAfter (step (stateAt real16 0x100#64 0b00000#5 0x0#64 [0x0F#8, 0x8B#8, 0x34#8, 0x12#8])) =
      some 0x1338#64 ∧
    ipAfter (step (stateAt prot32 0x1000#64 0b00000#5 0x0#64 [0x0F#8, 0x8B#8, 0x78#8, 0x56#8, 0x34#8, 0x12#8])) =
      some 0x1234667E#64 := by decide

theorem test_jl_near_N16_25_N32_25 :
    ipAfter (step (stateAt real16 0x100#64 0b00001#5 0x0#64 [0x0F#8, 0x8C#8, 0x34#8, 0x12#8])) =
      some 0x1338#64 ∧
    ipAfter (step (stateAt prot32 0x1000#64 0b00001#5 0x0#64 [0x0F#8, 0x8C#8, 0x78#8, 0x56#8, 0x34#8, 0x12#8])) =
      some 0x1234667E#64 := by decide

theorem test_jge_near_N16_27_N32_27 :
    ipAfter (step (stateAt real16 0x100#64 0b00000#5 0x0#64 [0x0F#8, 0x8D#8, 0x34#8, 0x12#8])) =
      some 0x1338#64 ∧
    ipAfter (step (stateAt prot32 0x1000#64 0b00000#5 0x0#64 [0x0F#8, 0x8D#8, 0x78#8, 0x56#8, 0x34#8, 0x12#8])) =
      some 0x1234667E#64 := by decide

theorem test_jle_near_N16_29_N32_29 :
    ipAfter (step (stateAt real16 0x100#64 0b00001#5 0x0#64 [0x0F#8, 0x8E#8, 0x34#8, 0x12#8])) =
      some 0x1338#64 ∧
    ipAfter (step (stateAt prot32 0x1000#64 0b00001#5 0x0#64 [0x0F#8, 0x8E#8, 0x78#8, 0x56#8, 0x34#8, 0x12#8])) =
      some 0x1234667E#64 := by decide

theorem test_jg_near_N16_31_N32_31 :
    ipAfter (step (stateAt real16 0x100#64 0b00000#5 0x0#64 [0x0F#8, 0x8F#8, 0x34#8, 0x12#8])) =
      some 0x1338#64 ∧
    ipAfter (step (stateAt prot32 0x1000#64 0b00000#5 0x0#64 [0x0F#8, 0x8F#8, 0x78#8, 0x56#8, 0x34#8, 0x12#8])) =
      some 0x1234667E#64 := by decide

theorem test_operand_size_16_cuts_the_taken_target_only_S40_S42_S43_N16_37 :
    ipAfter (step (stateAt ⟨.protectedMode, .bits16, .bits16, 0x0000FFFF#32, 48⟩ 0xFFFE#64 0b00100#5 0x0#64 [0x74#8, 0x10#8])) =
      some 0x10#64 ∧
    ipAfter (step (stateAt prot32 0x12340000#64 0b00100#5 0x0#64 [0x66#8, 0x74#8, 0x10#8])) =
      some 0x13#64 ∧
    ipAfter (step (stateAt prot32 0x12340000#64 0b00000#5 0x0#64 [0x66#8, 0x74#8, 0x10#8])) =
      some 0x12340003#64 ∧
    ipAfter (step (stateAt real16 0xFFFC#64 0b00000#5 0x0#64 [0x0F#8, 0x84#8, 0x10#8, 0x00#8])) =
      some 0x10000#64 := by decide

theorem test_wrap_and_limit_S44_to_S49 :
    ipAfter (step (stateAt prot32 0x0#64 0b00100#5 0x0#64 [0x74#8, 0x80#8])) =
      some 0xFFFFFF82#64 ∧
    faultOf (step (stateAt ⟨.protectedMode, .bits32, .bits32, 0x000FFFFF#32, 48⟩ 0x0#64 0b00100#5 0x0#64 [0x74#8, 0x80#8])) =
      some (.gp0 0x0#64) ∧
    ipAfter (step (stateAt ⟨.protectedMode, .bits32, .bits32, 0x00001011#32, 48⟩ 0x1000#64 0b00100#5 0x0#64 [0x74#8, 0x0F#8])) =
      some 0x1011#64 ∧
    faultOf (step (stateAt ⟨.protectedMode, .bits32, .bits32, 0x00001011#32, 48⟩ 0x1000#64 0b00100#5 0x0#64 [0x74#8, 0x10#8])) =
      some (.gp0 0x1000#64) ∧
    ipAfter (step (stateAt ⟨.protectedMode, .bits32, .bits32, 0x00001011#32, 48⟩ 0x1000#64 0b00000#5 0x0#64 [0x74#8, 0x10#8])) =
      some 0x1002#64 ∧
    faultOf (step (stateAt ⟨.compat, .bits32, .bits32, 0x00001011#32, 48⟩ 0x1000#64 0b00100#5 0x0#64 [0x74#8, 0x10#8])) =
      some (.gp0 0x1000#64) := by decide

theorem test_real_address_bounds_S51_S52_N32_37_N32_38 :
    faultOf (step (stateAt ⟨.real, .bits16, .bits16, 0x000001FF#32, 48⟩ 0x1F0#64 0b00100#5 0x0#64 [0x74#8, 0x10#8])) =
      some (.gp 0x1F0#64) ∧
    faultOf (step (stateAt ⟨.real, .bits16, .bits16, 0xFFFFFFFF#32, 48⟩ 0xFFF0#64 0b00100#5 0x0#64 [0x66#8, 0x74#8, 0x10#8])) =
      some (.gp 0xFFF0#64) ∧
    ipAfter (step (stateAt real16 0x100#64 0b00100#5 0x0#64 [0x66#8, 0x0F#8, 0x84#8, 0x00#8, 0x10#8, 0x00#8, 0x00#8])) =
      some 0x1107#64 ∧
    faultOf (step (stateAt ⟨.real, .bits16, .bits16, 0xFFFFFFFF#32, 48⟩ 0x100#64 0b00100#5 0x0#64 [0x66#8, 0x0F#8, 0x84#8, 0x00#8, 0x00#8, 0x01#8, 0x00#8])) =
      some (.gp 0x100#64) := by decide

theorem test_long64_S57_S58_S59_S60_S61_S62_N32_42 :
    ipAfter (step (stateAt long48 0x400000#64 0b00100#5 0x0#64 [0x66#8, 0x74#8, 0x10#8])) =
      some 0x400013#64 ∧
    ipAfter (step (stateAt long48 0x7FFFFFFFFFF0#64 0b00100#5 0x0#64 [0x74#8, 0x0D#8])) =
      some 0x7FFFFFFFFFFF#64 ∧
    faultOf (step (stateAt long48 0x7FFFFFFFFFF0#64 0b00100#5 0x0#64 [0x74#8, 0x0E#8])) =
      some (.gp0 0x7FFFFFFFFFF0#64) ∧
    ipAfter (step (stateAt ⟨.long64, .bits32, .bits32, 0#32, 57⟩ 0x7FFFFFFFFFF0#64 0b00100#5 0x0#64 [0x74#8, 0x0E#8])) =
      some 0x800000000000#64 ∧
    ipAfter (step (stateAt long48 0x0#64 0b00100#5 0x0#64 [0x74#8, 0x80#8])) =
      some 0xFFFFFFFFFFFFFF82#64 ∧
    faultOf (step (stateAt long48 0xFFFF800000000000#64 0b00100#5 0x0#64 [0x74#8, 0x80#8])) =
      some (.gp0 0xFFFF800000000000#64) ∧
    ipAfter (step (stateAt long48 0x400000#64 0b00100#5 0x0#64 [0x0F#8, 0x84#8, 0x00#8, 0x00#8, 0x00#8, 0x80#8])) =
      some 0xFFFFFFFF80400006#64 := by decide

theorem test_jcxz_C1_C8_C9_C11_C12 :
    ipAfter (step (stateAt real16 0x100#64 0b11111#5 0x12340000#64 [0xE3#8, 0x10#8])) =
      some 0x112#64 ∧
    ipAfter (step (stateAt prot32 0x2000#64 0b11111#5 0xABCD0000#64 [0x67#8, 0xE3#8, 0x10#8])) =
      some 0x2013#64 ∧
    ipAfter (step (stateAt prot32 0x2000#64 0b11111#5 0x10001#64 [0x67#8, 0xE3#8, 0x10#8])) =
      some 0x2003#64 ∧
    ipAfter (step (stateAt prot32 0x12343000#64 0b11111#5 0x0#64 [0x66#8, 0x67#8, 0xE3#8, 0xF0#8])) =
      some 0x2FF4#64 ∧
    ipAfter (step (stateAt prot32 0x12343000#64 0b11111#5 0x0#64 [0x67#8, 0x66#8, 0xE3#8, 0xF0#8])) =
      some 0x2FF4#64 := by decide

theorem test_jecxz_C4_C5_C7_C15_C21 :
    ipAfter (step (stateAt real16 0x100#64 0b11111#5 0x12340000#64 [0x67#8, 0xE3#8, 0x10#8])) =
      some 0x103#64 ∧
    ipAfter (step (stateAt real16 0x100#64 0b11111#5 0xFFFFFFFF00000000#64 [0x67#8, 0xE3#8, 0x10#8])) =
      some 0x113#64 ∧
    ipAfter (step (stateAt prot32 0x3000#64 0b11111#5 0x80000000#64 [0xE3#8, 0xF0#8])) =
      some 0x3002#64 ∧
    ipAfter (step (stateAt long48 0x400000#64 0b11111#5 0x100000000#64 [0x67#8, 0xE3#8, 0x05#8])) =
      some 0x400008#64 ∧
    faultOf (step (stateAt ⟨.protectedMode, .bits32, .bits32, 0x00002FFF#32, 48⟩ 0x2FF0#64 0b11111#5 0x0#64 [0xE3#8, 0x10#8])) =
      some (.gp0 0x2FF0#64) := by decide

theorem test_jrcxz_C14_C17_C18_C19 :
    ipAfter (step (stateAt long48 0x400000#64 0b11111#5 0x100000000#64 [0xE3#8, 0xFE#8])) =
      some 0x400002#64 ∧
    ipAfter (step (stateAt long48 0x400000#64 0b11111#5 0x0#64 [0x66#8, 0xE3#8, 0x7F#8])) =
      some 0x400082#64 ∧
    faultOf (step (stateAt long48 0x7FFFFFFFFFF0#64 0b11111#5 0x0#64 [0xE3#8, 0x0E#8])) =
      some (.gp0 0x7FFFFFFFFFF0#64) ∧
    ipAfter (step (stateAt long48 0x7FFFFFFFFFF0#64 0b11111#5 0x5#64 [0xE3#8, 0x0E#8])) =
      some 0x7FFFFFFFFFF2#64 := by decide

theorem test_lock_S53_C20_N16_41_N32_45 :
    faultOf (step (stateAt v86 0x100#64 0b00000#5 0x0#64 [0xF0#8, 0x74#8, 0x10#8])) =
      some (.ud 0x100#64) ∧
    faultOf (step (stateAt long48 0x400000#64 0b11111#5 0x7#64 [0xF0#8, 0xE3#8, 0xFE#8])) =
      some (.ud 0x400000#64) ∧
    faultOf (step (stateAt ⟨.protectedMode, .bits16, .bits16, 0x0000FFFF#32, 48⟩ 0x100#64 0b00100#5 0x0#64 [0xF0#8, 0x0F#8, 0x84#8, 0x34#8, 0x12#8])) =
      some (.ud 0x100#64) ∧
    faultOf (step (stateAt long48 0x400000#64 0b00000#5 0x0#64 [0x67#8, 0xF0#8, 0x0F#8, 0x84#8, 0x10#8, 0x00#8, 0x00#8, 0x00#8])) =
      some (.ud 0x400000#64) := by decide

theorem test_fetch_D10_to_D16 :
    refusalIn (step (stateAt prot32 0x1000#64 0b00100#5 0x0#64 [0x74#8])) =
      some (.fetchOutsideImage 0x1001#64) ∧
    refusalIn (step (stateAt prot32 0x1000#64 0b00000#5 0x0#64 [0x0F#8, 0x84#8, 0x10#8, 0x00#8])) =
      some (.fetchOutsideImage 0x1004#64) ∧
    refusalIn (step (stateAt prot32 0x1000#64 0b00100#5 0x0#64 [0xF0#8, 0x74#8])) =
      some (.fetchOutsideImage 0x1002#64) ∧
    faultOf (step (stateAt ⟨.protectedMode, .bits32, .bits32, 0x00001000#32, 48⟩ 0x1000#64 0b00000#5 0x0#64 [0x74#8, 0x10#8])) =
      some (.gp0 0x1000#64) ∧
    faultOf (step (stateAt ⟨.real, .bits16, .bits16, 0x000000FF#32, 48⟩ 0x100#64 0b00000#5 0x0#64 [0x74#8, 0x10#8])) =
      some (.gp 0x100#64) ∧
    faultOf (step (stateAt long48 0x800000000000#64 0b00000#5 0x0#64 [0x74#8, 0x10#8])) =
      some (.gp0 0x800000000000#64) ∧
    faultOf (step (stateAt long48 0x7FFFFFFFFFFF#64 0b00000#5 0x0#64 [0x74#8, 0x10#8])) =
      some (.gp0 0x7FFFFFFFFFFF#64) := by decide

theorem test_exit_before_any_fetch_D17 :
    refusalIn (step { stateAt prot32 0x1000#64 0b00000#5 0#64 [] with exits := [0x1000] }) = some .exit := by decide

/-- A jump of the image of program P1 at the offset reached after its first step: JE taken. -/
theorem test_program_P1_second_step :
    ipAfter (step (stateAt prot32 0x1002#64 0b00100#5 0#64 [0x74#8, 0x0A#8, 0x0F#8, 0x8F#8, 0x06#8, 0#8, 0#8, 0#8])) =
      some 0x100E#64 := by decide

/-! ### The table's words -/

theorem test_table_words :
    decodeTableWord 8 0x77 = some (.jaRel8 [] 0#8) ∧ decodeTableWord 8 0xE3 = some (.jcxz [] 0#8) ∧
    decodeTableWord 16 0x0F87 = some (.jaRel16 [] 0#16) ∧ decodeTableWord 8 0x90 = none := by decide

theorem test_first_step_runs_the_table_word :
    ipAfter (step (State.reset.withFetchWord 8 0x75)) = some 0xFFF2#64 ∧
    ipAfter (step (State.reset.withFetchWord 16 0x0F84)) = some 0xFFF4#64 ∧
    refusalIn (step State.reset) = some (.fetchOutsideImage 0xFFF0#64) := by decide

/-! ### Witnesses: a state and operands that meet the hypotheses of each statement -/

theorem witness_CountOpcodeSelectsByAddressSize :
    ([] : Prefixes).Nodup ∧ [Prefix.opSize, .addrSize, .lock].Nodup ∧ addressSize real16 [] = .bits16 ∧
    addressSize prot32 [.opSize, .addrSize, .lock] = .bits16 ∧ addressSize prot32 [] = .bits32 ∧
    addressSize long48 [.opSize, .addrSize, .lock] = .bits32 ∧ addressSize long48 [] = .bits64 := by decide

theorem witness_Near16OpcodesDecode : operandSize real16 [] = .bits16 := by decide

theorem witness_Near32OpcodesDecode : operandSize prot32 [] ≠ .bits16 ∧ operandSize long48 [] ≠ .bits16 := by decide

theorem witness_DecodeOfEncode :
    Instr.wf long48 (.jnleRel32 [.lock, .addrSize] 0x80000000#32) = true ∧ Instr.wf real16 (.jcxz [] 0x80#8) = true ∧
    Instr.wf prot32 (.jzRel16 [.opSize] 0xFFFF#16) = true := by decide

theorem witness_EncodeOfDecode :
    decode real16 [0x66#8, 0x0F#8, 0x8F#8, 1#8, 2#8, 3#8, 4#8, 5#8] = .ok (.jgRel32 [.opSize] 0x04030201#32) [5#8] := by
  decide

theorem witness_DecodedLength :
    decode prot32 [0x70#8, 0#8] = .ok (.joRel8 [] 0#8) [] ∧
    decode real16 [0x66#8, 0x67#8, 0xF0#8, 0x0F#8, 0x80#8, 0#8, 0#8, 0#8, 0#8] =
      .ok (.joRel32 [.opSize, .addrSize, .lock] 0#32) [] := by decide

theorem witness_RepeatedLeadingByteRefused :
    [Prefix.opSize, .addrSize, .lock].Nodup ∧ Prefix.lock ∈ [Prefix.opSize, .addrSize, .lock] := by decide

theorem witness_OtherBytesRefused :
    [Prefix.lock].Nodup ∧
    (∀ b ∈ [0x6F#8, 0x80#8, 0xE2#8, 0xE4#8, 0x0E#8, 0x10#8, 0x65#8, 0x68#8, 0xEF#8, 0xF1#8, 0x2E#8, 0xF2#8, 0xF3#8, 0x48#8],
      b.toNat ≠ 0x66 ∧ b.toNat ≠ 0x67 ∧ b.toNat ≠ 0xF0 ∧ ¬ (0x70 ≤ b.toNat ∧ b.toNat ≤ 0x7F) ∧ b.toNat ≠ 0xE3 ∧
      b.toNat ≠ 0x0F) ∧
    (∀ b ∈ [0x7F#8, 0x90#8], ¬ (0x80 ≤ b.toNat ∧ b.toNat ≤ 0x8F)) := by decide

theorem witness_NearFormByOperandSize :
    [Prefix.opSize].Nodup ∧ prot32.mode ≠ .long64 ∧ operandSize prot32 [.opSize] = .bits16 ∧ real16.mode ≠ .long64 ∧
    operandSize real16 [.opSize] = .bits32 ∧ long48.mode = .long64 ∧ Prefix.opSize ∉ ([] : Prefixes) ∧
    Prefix.opSize ∈ [Prefix.opSize] := by decide

theorem witness_OperandSizeAttribute :
    long48.mode = .long64 ∧ real16.mode ≠ .long64 ∧ real16.defOpSize = .bits16 ∧ prot32.mode ≠ .long64 ∧
    prot32.defOpSize = .bits32 ∧ Prefix.opSize ∉ [Prefix.lock] ∧ Prefix.opSize ∈ [Prefix.lock, .opSize] := by decide

theorem witness_AddressSizeAttribute :
    long48.mode = .long64 ∧ real16.mode ≠ .long64 ∧ real16.defAddrSize = .bits16 ∧ prot32.mode ≠ .long64 ∧
    prot32.defAddrSize = .bits32 ∧ Prefix.addrSize ∉ [Prefix.lock] ∧ Prefix.addrSize ∈ [Prefix.lock, .addrSize] := by
  decide

theorem witness_FormsOfEachMode :
    decode real16 [0xE3#8, 0#8] = .ok (.jcxz [] 0#8) [] ∧ opOf (.jcxz [] 0#8) = .count .bits16 0#8 ∧
    decode long48 [0x67#8, 0xE3#8, 0#8] = .ok (.jecxz [.addrSize] 0#8) [] ∧
    opOf (.jecxz [.addrSize] 0#8) = .count .bits32 0#8 ∧
    decode long48 [0xE3#8, 0#8] = .ok (.jrcxz [] 0#8) [] ∧ opOf (.jrcxz [] 0#8) = .count .bits64 0#8 ∧
    decode real16 [0x0F#8, 0x80#8, 0#8, 0#8] = .ok (.joRel16 [] 0#16) [] ∧
    opOf (.joRel16 [] 0#16) = .near16 .o 0#16 ∧ long48.mode = .long64 ∧ real16.mode ≠ .long64 := by decide

theorem witness_FlagConditions : (Cond.nibble .o).toNat % 2 = 0 ∧ (Cond.nibble .le).toNat % 2 = 0 := by decide

theorem witness_CountConditions :
    (stateAt long48 0x400000#64 0b00000#5 0x0000000100000000#64 []).RCX = 0x0000000100000000#64 := by decide

/-- The five cases of `JumpsWhen`: `i` with the condition false in `no`, true with the target in bounds in `yes`, true
with the target out of bounds in `out`; `j` has the LOCK byte; no byte string spells `k` under `bad`. -/
abbrev Meets (cond : State → Prop) (i j k : Instr) (no yes out : State) (bad : Config) : Prop :=
  (i.wf no.config = true ∧ Prefix.lock ∉ prefixesOf i ∧ ¬ cond no) ∧
  (i.wf yes.config = true ∧ cond yes ∧ inBounds yes.config (targetAt i yes)) ∧
  (i.wf out.config = true ∧ cond out ∧ ¬ inBounds out.config (targetAt i out)) ∧
  (j.wf no.config = true ∧ Prefix.lock ∈ prefixesOf j) ∧ k.wf bad = false

/-- A state at 1000H with flags `fl`. -/
abbrev atFlags (c : Config) (fl : BitVec 5) : State := stateAt c 0x1000#64 fl 5#64 []

theorem witness_JumpsOnOverflow :
    Meets (fun s => s.OF = true) (.joRel8 [] 0x10#8) (.joRel8 [.lock] 0x10#8) (.joRel8 [.lock, .lock] 0x10#8)
      (atFlags prot32 0b00000#5) (atFlags prot32 0b00001#5) (atFlags protLow 0b00001#5) prot32 ∧
    Meets (fun s => s.OF = false) (.jnoRel8 [] 0x10#8) (.jnoRel8 [.lock] 0x10#8) (.jnoRel8 [.lock, .lock] 0x10#8)
      (atFlags prot32 0b00001#5) (atFlags prot32 0b00000#5) (atFlags protLow 0b00000#5) prot32 ∧
    Meets (fun s => s.OF = true) (.joRel16 [] 0x10#16) (.joRel16 [.lock] 0x10#16) (.joRel16 [] 0x10#16)
      (atFlags real16 0b00000#5) (atFlags real16 0b00001#5) (atFlags realLow 0b00001#5) long48 ∧
    Meets (fun s => s.OF = false) (.jnoRel16 [] 0x10#16) (.jnoRel16 [.lock] 0x10#16) (.jnoRel16 [] 0x10#16)
      (atFlags real16 0b00001#5) (atFlags real16 0b00000#5) (atFlags realLow 0b00000#5) long48 ∧
    Meets (fun s => s.OF = true) (.joRel32 [] 0x10#32) (.joRel32 [.lock] 0x10#32) (.joRel32 [] 0x10#32)
      (atFlags prot32 0b00000#5) (atFlags prot32 0b00001#5) (atFlags protLow 0b00001#5) real16 ∧
    Meets (fun s => s.OF = false) (.jnoRel32 [] 0x10#32) (.jnoRel32 [.lock] 0x10#32) (.jnoRel32 [] 0x10#32)
      (atFlags prot32 0b00001#5) (atFlags prot32 0b00000#5) (atFlags protLow 0b00000#5) real16 :=
  ⟨by decide, by decide, by decide, by decide, by decide, by decide⟩

theorem witness_JumpsOnCarry :
    Meets (fun s => s.CF = true) (.jbRel8 [] 0x10#8) (.jbRel8 [.lock] 0x10#8) (.jbRel8 [.lock, .lock] 0x10#8)
      (atFlags prot32 0b00000#5) (atFlags prot32 0b10000#5) (atFlags protLow 0b10000#5) prot32 ∧
    Meets (fun s => s.CF = false) (.jaeRel8 [] 0x10#8) (.jaeRel8 [.lock] 0x10#8) (.jaeRel8 [.lock, .lock] 0x10#8)
      (atFlags prot32 0b10000#5) (atFlags prot32 0b00000#5) (atFlags protLow 0b00000#5) prot32 ∧
    Meets (fun s => s.CF = true) (.jbRel16 [] 0x10#16) (.jbRel16 [.lock] 0x10#16) (.jbRel16 [] 0x10#16)
      (atFlags real16 0b00000#5) (atFlags real16 0b10000#5) (atFlags realLow 0b10000#5) long48 ∧
    Meets (fun s => s.CF = false) (.jaeRel16 [] 0x10#16) (.jaeRel16 [.lock] 0x10#16) (.jaeRel16 [] 0x10#16)
      (atFlags real16 0b10000#5) (atFlags real16 0b00000#5) (atFlags realLow 0b00000#5) long48 ∧
    Meets (fun s => s.CF = true) (.jbRel32 [] 0x10#32) (.jbRel32 [.lock] 0x10#32) (.jbRel32 [] 0x10#32)
      (atFlags prot32 0b00000#5) (atFlags prot32 0b10000#5) (atFlags protLow 0b10000#5) real16 ∧
    Meets (fun s => s.CF = false) (.jaeRel32 [] 0x10#32) (.jaeRel32 [.lock] 0x10#32) (.jaeRel32 [] 0x10#32)
      (atFlags prot32 0b10000#5) (atFlags prot32 0b00000#5) (atFlags protLow 0b00000#5) real16 :=
  ⟨by decide, by decide, by decide, by decide, by decide, by decide⟩

theorem witness_JumpsOnZero :
    Meets (fun s => s.ZF = true) (.jeRel8 [] 0x10#8) (.jeRel8 [.lock] 0x10#8) (.jeRel8 [.lock, .lock] 0x10#8)
      (atFlags prot32 0b00000#5) (atFlags prot32 0b00100#5) (atFlags protLow 0b00100#5) prot32 ∧
    Meets (fun s => s.ZF = false) (.jneRel8 [] 0x10#8) (.jneRel8 [.lock] 0x10#8) (.jneRel8 [.lock, .lock] 0x10#8)
      (atFlags prot32 0b00100#5) (atFlags prot32 0b00000#5) (atFlags protLow 0b00000#5) prot32 ∧
    Meets (fun s => s.ZF = true) (.jeRel16 [] 0x10#16) (.jeRel16 [.lock] 0x10#16) (.jeRel16 [] 0x10#16)
      (atFlags real16 0b00000#5) (atFlags real16 0b00100#5) (atFlags realLow 0b00100#5) long48 ∧
    Meets (fun s => s.ZF = false) (.jneRel16 [] 0x10#16) (.jneRel16 [.lock] 0x10#16) (.jneRel16 [] 0x10#16)
      (atFlags real16 0b00100#5) (atFlags real16 0b00000#5) (atFlags realLow 0b00000#5) long48 ∧
    Meets (fun s => s.ZF = true) (.jeRel32 [] 0x10#32) (.jeRel32 [.lock] 0x10#32) (.jeRel32 [] 0x10#32)
      (atFlags prot32 0b00000#5) (atFlags prot32 0b00100#5) (atFlags protLow 0b00100#5) real16 ∧
    Meets (fun s => s.ZF = false) (.jneRel32 [] 0x10#32) (.jneRel32 [.lock] 0x10#32) (.jneRel32 [] 0x10#32)
      (atFlags prot32 0b00100#5) (atFlags prot32 0b00000#5) (atFlags protLow 0b00000#5) real16 :=
  ⟨by decide, by decide, by decide, by decide, by decide, by decide⟩

theorem witness_JumpsOnCarryOrZero :
    Meets (fun s => s.CF = true ∨ s.ZF = true) (.jbeRel8 [] 0x10#8) (.jbeRel8 [.lock] 0x10#8) (.jbeRel8 [.lock, .lock] 0x10#8)
      (atFlags prot32 0b00000#5) (atFlags prot32 0b00100#5) (atFlags protLow 0b00100#5) prot32 ∧
    Meets (fun s => s.CF = false ∧ s.ZF = false) (.jaRel8 [] 0x10#8) (.jaRel8 [.lock] 0x10#8) (.jaRel8 [.lock, .lock] 0x10#8)
      (atFlags prot32 0b00100#5) (atFlags prot32 0b00000#5) (atFlags protLow 0b00000#5) prot32 ∧
    Meets (fun s => s.CF = true ∨ s.ZF = true) (.jbeRel16 [] 0x10#16) (.jbeRel16 [.lock] 0x10#16) (.jbeRel16 [] 0x10#16)
      (atFlags real16 0b00000#5) (atFlags real16 0b00100#5) (atFlags realLow 0b00100#5) long48 ∧
    Meets (fun s => s.CF = false ∧ s.ZF = false) (.jaRel16 [] 0x10#16) (.jaRel16 [.lock] 0x10#16) (.jaRel16 [] 0x10#16)
      (atFlags real16 0b00100#5) (atFlags real16 0b00000#5) (atFlags realLow 0b00000#5) long48 ∧
    Meets (fun s => s.CF = true ∨ s.ZF = true) (.jbeRel32 [] 0x10#32) (.jbeRel32 [.lock] 0x10#32) (.jbeRel32 [] 0x10#32)
      (atFlags prot32 0b00000#5) (atFlags prot32 0b00100#5) (atFlags protLow 0b00100#5) real16 ∧
    Meets (fun s => s.CF = false ∧ s.ZF = false) (.jaRel32 [] 0x10#32) (.jaRel32 [.lock] 0x10#32) (.jaRel32 [] 0x10#32)
      (atFlags prot32 0b00100#5) (atFlags prot32 0b00000#5) (atFlags protLow 0b00000#5) real16 :=
  ⟨by decide, by decide, by decide, by decide, by decide, by decide⟩

theorem witness_JumpsOnSign :
    Meets (fun s => s.SF = true) (.jsRel8 [] 0x10#8) (.jsRel8 [.lock] 0x10#8) (.jsRel8 [.lock, .lock] 0x10#8)
      (atFlags prot32 0b00000#5) (atFlags prot32 0b00010#5) (atFlags protLow 0b00010#5) prot32 ∧
    Meets (fun s => s.SF = false) (.jnsRel8 [] 0x10#8) (.jnsRel8 [.lock] 0x10#8) (.jnsRel8 [.lock, .lock] 0x10#8)
      (atFlags prot32 0b00010#5) (atFlags prot32 0b00000#5) (atFlags protLow 0b00000#5) prot32 ∧
    Meets (fun s => s.SF = true) (.jsRel16 [] 0x10#16) (.jsRel16 [.lock] 0x10#16) (.jsRel16 [] 0x10#16)
      (atFlags real16 0b00000#5) (atFlags real16 0b00010#5) (atFlags realLow 0b00010#5) long48 ∧
    Meets (fun s => s.SF = false) (.jnsRel16 [] 0x10#16) (.jnsRel16 [.lock] 0x10#16) (.jnsRel16 [] 0x10#16)
      (atFlags real16 0b00010#5) (atFlags real16 0b00000#5) (atFlags realLow 0b00000#5) long48 ∧
    Meets (fun s => s.SF = true) (.jsRel32 [] 0x10#32) (.jsRel32 [.lock] 0x10#32) (.jsRel32 [] 0x10#32)
      (atFlags prot32 0b00000#5) (atFlags prot32 0b00010#5) (atFlags protLow 0b00010#5) real16 ∧
    Meets (fun s => s.SF = false) (.jnsRel32 [] 0x10#32) (.jnsRel32 [.lock] 0x10#32) (.jnsRel32 [] 0x10#32)
      (atFlags prot32 0b00010#5) (atFlags prot32 0b00000#5) (atFlags protLow 0b00000#5) real16 :=
  ⟨by decide, by decide, by decide, by decide, by decide, by decide⟩

theorem witness_JumpsOnParity :
    Meets (fun s => s.PF = true) (.jpRel8 [] 0x10#8) (.jpRel8 [.lock] 0x10#8) (.jpRel8 [.lock, .lock] 0x10#8)
      (atFlags prot32 0b00000#5) (atFlags prot32 0b01000#5) (atFlags protLow 0b01000#5) prot32 ∧
    Meets (fun s => s.PF = false) (.jnpRel8 [] 0x10#8) (.jnpRel8 [.lock] 0x10#8) (.jnpRel8 [.lock, .lock] 0x10#8)
      (atFlags prot32 0b01000#5) (atFlags prot32 0b00000#5) (atFlags protLow 0b00000#5) prot32 ∧
    Meets (fun s => s.PF = true) (.jpRel16 [] 0x10#16) (.jpRel16 [.lock] 0x10#16) (.jpRel16 [] 0x10#16)
      (atFlags real16 0b00000#5) (atFlags real16 0b01000#5) (atFlags realLow 0b01000#5) long48 ∧
    Meets (fun s => s.PF = false) (.jnpRel16 [] 0x10#16) (.jnpRel16 [.lock] 0x10#16) (.jnpRel16 [] 0x10#16)
      (atFlags real16 0b01000#5) (atFlags real16 0b00000#5) (atFlags realLow 0b00000#5) long48 ∧
    Meets (fun s => s.PF = true) (.jpRel32 [] 0x10#32) (.jpRel32 [.lock] 0x10#32) (.jpRel32 [] 0x10#32)
      (atFlags prot32 0b00000#5) (atFlags prot32 0b01000#5) (atFlags protLow 0b01000#5) real16 ∧
    Meets (fun s => s.PF = false) (.jnpRel32 [] 0x10#32) (.jnpRel32 [.lock] 0x10#32) (.jnpRel32 [] 0x10#32)
      (atFlags prot32 0b01000#5) (atFlags prot32 0b00000#5) (atFlags protLow 0b00000#5) real16 :=
  ⟨by decide, by decide, by decide, by decide, by decide, by decide⟩

theorem witness_JumpsOnLess :
    Meets (fun s => s.SF ≠ s.OF) (.jlRel8 [] 0x10#8) (.jlRel8 [.lock] 0x10#8) (.jlRel8 [.lock, .lock] 0x10#8)
      (atFlags prot32 0b00011#5) (atFlags prot32 0b00010#5) (atFlags protLow 0b00010#5) prot32 ∧
    Meets (fun s => s.SF = s.OF) (.jgeRel8 [] 0x10#8) (.jgeRel8 [.lock] 0x10#8) (.jgeRel8 [.lock, .lock] 0x10#8)
      (atFlags prot32 0b00010#5) (atFlags prot32 0b00011#5) (atFlags protLow 0b00011#5) prot32 ∧
    Meets (fun s => s.SF ≠ s.OF) (.jlRel16 [] 0x10#16) (.jlRel16 [.lock] 0x10#16) (.jlRel16 [] 0x10#16)
      (atFlags real16 0b00011#5) (atFlags real16 0b00010#5) (atFlags realLow 0b00010#5) long48 ∧
    Meets (fun s => s.SF = s.OF) (.jgeRel16 [] 0x10#16) (.jgeRel16 [.lock] 0x10#16) (.jgeRel16 [] 0x10#16)
      (atFlags real16 0b00010#5) (atFlags real16 0b00011#5) (atFlags realLow 0b00011#5) long48 ∧
    Meets (fun s => s.SF ≠ s.OF) (.jlRel32 [] 0x10#32) (.jlRel32 [.lock] 0x10#32) (.jlRel32 [] 0x10#32)
      (atFlags prot32 0b00011#5) (atFlags prot32 0b00010#5) (atFlags protLow 0b00010#5) real16 ∧
    Meets (fun s => s.SF = s.OF) (.jgeRel32 [] 0x10#32) (.jgeRel32 [.lock] 0x10#32) (.jgeRel32 [] 0x10#32)
      (atFlags prot32 0b00010#5) (atFlags prot32 0b00011#5) (atFlags protLow 0b00011#5) real16 :=
  ⟨by decide, by decide, by decide, by decide, by decide, by decide⟩

theorem witness_JumpsOnLessOrZero :
    Meets (fun s => s.ZF = true ∨ s.SF ≠ s.OF) (.jleRel8 [] 0x10#8) (.jleRel8 [.lock] 0x10#8) (.jleRel8 [.lock, .lock] 0x10#8)
      (atFlags prot32 0b00011#5) (atFlags prot32 0b00111#5) (atFlags protLow 0b00111#5) prot32 ∧
    Meets (fun s => s.ZF = false ∧ s.SF = s.OF) (.jgRel8 [] 0x10#8) (.jgRel8 [.lock] 0x10#8) (.jgRel8 [.lock, .lock] 0x10#8)
      (atFlags prot32 0b00111#5) (atFlags prot32 0b00011#5) (atFlags protLow 0b00011#5) prot32 ∧
    Meets (fun s => s.ZF = true ∨ s.SF ≠ s.OF) (.jleRel16 [] 0x10#16) (.jleRel16 [.lock] 0x10#16) (.jleRel16 [] 0x10#16)
      (atFlags real16 0b00011#5) (atFlags real16 0b00111#5) (atFlags realLow 0b00111#5) long48 ∧
    Meets (fun s => s.ZF = false ∧ s.SF = s.OF) (.jgRel16 [] 0x10#16) (.jgRel16 [.lock] 0x10#16) (.jgRel16 [] 0x10#16)
      (atFlags real16 0b00111#5) (atFlags real16 0b00011#5) (atFlags realLow 0b00011#5) long48 ∧
    Meets (fun s => s.ZF = true ∨ s.SF ≠ s.OF) (.jleRel32 [] 0x10#32) (.jleRel32 [.lock] 0x10#32) (.jleRel32 [] 0x10#32)
      (atFlags prot32 0b00011#5) (atFlags prot32 0b00111#5) (atFlags protLow 0b00111#5) real16 ∧
    Meets (fun s => s.ZF = false ∧ s.SF = s.OF) (.jgRel32 [] 0x10#32) (.jgRel32 [.lock] 0x10#32) (.jgRel32 [] 0x10#32)
      (atFlags prot32 0b00111#5) (atFlags prot32 0b00011#5) (atFlags protLow 0b00011#5) real16 :=
  ⟨by decide, by decide, by decide, by decide, by decide, by decide⟩

theorem witness_JumpsOnCountRegister :
    Meets (fun s => s.RCX.toNat % 2 ^ 16 = 0) (.jcxz [] 0x10#8) (.jcxz [.lock] 0x10#8) (.jcxz [] 0x10#8)
      (stateAt real16 0x1000#64 0b00000#5 0xFFFF#64 []) (stateAt real16 0x1000#64 0b00000#5 0x10000#64 [])
      (stateAt realLow 0x1000#64 0b00000#5 0x10000#64 []) long48 ∧
    Meets (fun s => s.RCX.toNat % 2 ^ 32 = 0) (.jecxz [] 0x10#8) (.jecxz [.lock] 0x10#8) (.jecxz [] 0x10#8)
      (stateAt prot32 0x1000#64 0b00000#5 0x10000#64 []) (stateAt prot32 0x1000#64 0b00000#5 0x100000000#64 [])
      (stateAt protLow 0x1000#64 0b00000#5 0x100000000#64 []) real16 ∧
    Meets (fun s => s.RCX.toNat = 0) (.jrcxz [] 0x10#8) (.jrcxz [.lock] 0x10#8) (.jrcxz [] 0x10#8)
      (stateAt long48 0x1000#64 0b00000#5 0x100000000#64 []) (stateAt long48 0x1000#64 0b00000#5 0#64 [])
      (stateAt long48 0x7FFFFFFFFFF0#64 0b00000#5 0#64 []) prot32 := by decide

theorem witness_NotTakenFallsThrough :
    let s := stateAt real16 0xFFFC#64 0b00000#5 0#64 [0x0F#8, 0x84#8, 0x10#8, 0x00#8]
    let i : Instr := .jeRel16 [] 0x0010#16
    i.wf s.config = true ∧ Prefix.lock ∉ prefixesOf i ∧ takenAt i s = false ∧
    0x10000 = (s.ip.toNat + lengthOf (prefixesOf i) (opOf i)) % 2 ^ (if s.config.mode = .long64 then 64 else 32) ∧
    s.ip.toNat ∉ s.exits ∧ fetchesBytes s s.ip [0x0F#8, 0x84#8, 0x10#8, 0x00#8] ∧
    decode s.config [0x0F#8, 0x84#8, 0x10#8, 0x00#8] = .ok i [] :=
  ⟨by decide, by decide, by decide, by decide, by decide, ⟨rfl, rfl, rfl, rfl, trivial⟩, by decide⟩

theorem witness_TakenOutside64BitMode :
    let s := atFlags prot32 0b00100#5
    let i : Instr := .jeRel8 [] 0xFE#8
    let j : Instr := .jeRel16 [.opSize] 0xFFFB#16
    s.config.mode ≠ .long64 ∧ i.wf s.config = true ∧ Prefix.lock ∉ prefixesOf i ∧ takenAt i s = true ∧
    relInt i = -(lengthOf (prefixesOf i) (opOf i) : Int) ∧ operandSize s.config (prefixesOf i) ≠ .bits16 ∧
    inBounds s.config (targetAt i s) ∧ ¬ inBounds protLow (targetAt (.jeRel8 [] 0x10#8) (atFlags protLow 0b00100#5)) ∧
    relInt (.jeRel8 [] 0#8) = 0 ∧
    j.wf s.config = true ∧ takenAt j s = true ∧ relInt j = -(lengthOf (prefixesOf j) (opOf j) : Int) ∧
    operandSize s.config (prefixesOf j) = .bits16 ∧ s.ip.toNat % 2 ^ 32 < 2 ^ 16 := by decide

theorem witness_TakenIn64BitMode :
    let s := stateAt long48 0x00007FFFFFFFFFF0#64 0b00100#5 0#64 []
    let i : Instr := .jeRel8 [] 0x0D#8
    let j : Instr := .jeRel8 [] 0x0E#8
    s.config.mode = .long64 ∧ i.wf s.config = true ∧ Prefix.lock ∉ prefixesOf i ∧ takenAt i s = true ∧
    canonical 48 (BitVec.ofInt 64 ((s.ip.toNat + lengthOf (prefixesOf i) (opOf i) : Nat) + relInt i)) = true ∧
    j.wf s.config = true ∧ takenAt j s = true ∧
    canonical 48 (BitVec.ofInt 64 ((s.ip.toNat + lengthOf (prefixesOf j) (opOf j) : Nat) + relInt j)) = false := by decide

theorem witness_Rel16TargetsStayBelow64K :
    decode real16 [0x0F#8, 0x84#8, 0x00#8, 0x80#8] = .ok (.jeRel16 [] 0x8000#16) [] ∧
    opOf (.jeRel16 [] 0x8000#16) = .near16 .e 0x8000#16 ∧
    decode prot32 [0x0F#8, 0x84#8, 0#8, 0#8, 0#8, 0x80#8] = .ok (.jeRel32 [] 0x80000000#32) [] ∧
    opOf (.jeRel32 [] 0x80000000#32) = .near32 .e 0x80000000#32 ∧ prot32.mode ≠ .long64 := by decide

theorem witness_LimitAndSixtyFourKBounds :
    let s := atFlags protLow 0b00100#5
    let t := stateAt v86Big 0xFFF0#64 0b00100#5 0#64 []
    let i : Instr := .jeRel8 [] 0x10#8
    prot32.mode = .protectedMode ∧ compat32.mode = .compat ∧ real16.mode = .real ∧ v86.mode = .v8086 ∧
    operandSize real16 [] = .bits16 ∧ s.config.mode ≠ .long64 ∧ i.wf s.config = true ∧ Prefix.lock ∉ prefixesOf i ∧
    takenAt i s = true ∧ s.config.csLimit.toNat < targetAt i s ∧
    t.config.mode = .v8086 ∧ i.wf t.config = true ∧ takenAt i t = true ∧ 0xFFFF < targetAt i t := by decide

theorem witness_CanonicalForm :
    let s := stateAt long48 0x00007FFFFFFFFFF0#64 0b00100#5 0#64 []
    let i : Instr := .jeRel8 [] 0x0E#8
    (∀ va ∈ [1, 48, 57, 64], 1 ≤ va ∧ va ≤ 64) ∧ long48.mode = .long64 ∧ i.wf s.config = true ∧
    Prefix.lock ∉ prefixesOf i ∧ takenAt i s = true ∧
    canonical s.config.vaBits (BitVec.ofNat 64 (targetAt i s)) = false := by decide

theorem witness_GeneralProtectionInProtectedAndCompat :
    protLow.mode = .protectedMode ∧ compatLow.mode = .compat ∧ Instr.wf protLow (.jeRel8 [] 0x10#8) = true ∧
    Instr.wf compatLow (.jeRel8 [] 0x10#8) = true ∧ Prefix.lock ∉ prefixesOf (.jeRel8 [] 0x10#8) ∧
    exec (.jeRel8 [] 0x10#8) (atFlags protLow 0b00100#5) = .fault (.gp0 0x1000#64) ∧
    exec (.jeRel8 [] 0x10#8) (atFlags compatLow 0b00100#5) = .fault (.gp0 0x1000#64) :=
  ⟨rfl, rfl, by decide, by decide, by decide, rfl, rfl⟩

theorem witness_GeneralProtectionInRealAndV8086 :
    realBig.mode = .real ∧ v86Big.mode = .v8086 ∧ Instr.wf realBig (.jeRel8 [] 0x10#8) = true ∧
    Instr.wf v86Big (.jeRel8 [] 0x10#8) = true ∧ Prefix.lock ∉ prefixesOf (.jeRel8 [] 0x10#8) ∧
    0xFFFF < targetAt (.jeRel8 [] 0x10#8) (stateAt realBig 0xFFF0#64 0b00100#5 0#64 []) ∧
    exec (.jeRel8 [] 0x10#8) (stateAt realBig 0xFFF0#64 0b00100#5 0#64 []) = .fault (.gp 0xFFF0#64) ∧
    exec (.jeRel8 [] 0x10#8) (stateAt v86Big 0xFFF0#64 0b00100#5 0#64 []) = .fault (.gp 0xFFF0#64) :=
  ⟨rfl, rfl, by decide, by decide, by decide, by decide, rfl, rfl⟩

theorem witness_GeneralProtectionIn64BitMode :
    long48.mode = .long64 ∧ Instr.wf long48 (.jrcxz [] 0x0E#8) = true ∧ Prefix.lock ∉ prefixesOf (.jrcxz [] 0x0E#8) ∧
    exec (.jrcxz [] 0x0E#8) (stateAt long48 0x00007FFFFFFFFFF0#64 0b00000#5 0#64 []) =
      .fault (.gp0 0x00007FFFFFFFFFF0#64) := ⟨rfl, by decide, by decide, rfl⟩

theorem witness_LockRaisesInvalidOpcode :
    let s := stateAt v86 0x100#64 0b00000#5 0#64 [0xF0#8, 0x74#8, 0x10#8]
    Instr.wf s.config (.jeRel8 [.lock] 0x10#8) = true ∧ Prefix.lock ∈ prefixesOf (.jeRel8 [.lock] 0x10#8) ∧
    s.ip.toNat ∉ s.exits ∧ fetchesBytes s s.ip [0xF0#8, 0x74#8, 0x10#8] ∧
    decode s.config [0xF0#8, 0x74#8, 0x10#8] = .ok (.jeRel8 [.lock] 0x10#8) [] :=
  ⟨by decide, by decide, by decide, ⟨rfl, rfl, rfl, trivial⟩, by decide⟩

theorem witness_UnspelledFormsRefused :
    Instr.wf prot32 (.jeRel16 [] 0#16) = false ∧ long48.mode = .long64 ∧ prot32.mode ≠ .long64 := by decide

theorem witness_OnlyIpIsWritten :
    let s := stateAt prot32 0x1000#64 0b00100#5 7#64 [0x74#8, 0x10#8]
    exec (.jeRel8 [] 0x10#8) s = .next { s with ip := 0x1012#64 } ∧ step s = .next { s with ip := 0x1012#64 } :=
  ⟨rfl, rfl⟩

theorem witness_OppositeConditionsPartition :
    Prefix.lock ∉ [Prefix.addrSize] ∧ (shortInstr .l [.addrSize] 0x10#8).wf prot32 = true ∧
    (near16Instr .l [.addrSize] 0x10#16).wf real16 = true ∧ (near32Instr .l [.addrSize] 0x10#32).wf long48 = true ∧
    Cond.ofNibble (Cond.nibble .l ^^^ 1#4) = .ge := by decide

theorem witness_AddressOverrideOnlyLengthens :
    let s := atFlags prot32 0b00100#5
    Prefix.addrSize ∉ [Prefix.opSize] ∧
    0xFFF#64 = addOffset s.config s.ip (BitVec.ofInt 64 (-1)) ∧
    ipAfter (exec (shortInstr .e [.opSize] 0x10#8) s) = some 0x1013#64 ∧
    ipAfter (exec (shortInstr .e [.addrSize, .opSize] 0x10#8) { s with ip := 0xFFF#64 }) = some 0x1013#64 ∧
    faultOf (exec (shortInstr .e [.lock] 0x10#8) s) = some (.ud 0x1000#64) ∧
    faultOf (exec (shortInstr .e [.addrSize, .lock] 0x10#8) { s with ip := 0xFFF#64 }) = some (.ud 0xFFF#64) ∧
    faultOf (exec (shortInstr .e [] 0x10#8) (atFlags protLow 0b00100#5)) = some (targetFault protLow 0x1000#64) ∧
    faultOf (exec (shortInstr .e [.addrSize] 0x10#8) { atFlags protLow 0b00100#5 with ip := 0xFFF#64 }) =
      some (targetFault protLow 0xFFF#64) := by decide

theorem witness_FetchPrimitive :
    long48.mode = .long64 ∧ canonical 48 0x0000800000000000#64 = false ∧ canonical 48 0x00007FFFFFFFFFFF#64 = true ∧
    protLow.mode = .protectedMode ∧ compatLow.mode = .compat ∧ protLow.csLimit.toNat < (0x1002#64).toNat ∧
    (0x1001#64).toNat ≤ protLow.csLimit.toNat ∧ realLow.mode = .real ∧ v86.mode = .v8086 ∧
    realLow.csLimit.toNat < (0x1004#64).toNat ∧ (0x1003#64).toNat ≤ realLow.csLimit.toNat ∧
    v86.csLimit.toNat < (0x10000#64).toNat ∧
    (stateAt prot32 0x1000#64 0b00000#5 0#64 [0x74#8]).code.read 0x1000 = some 0x74#8 ∧
    (stateAt prot32 0x1000#64 0b00000#5 0#64 [0x74#8]).code.read 0x1001 = none := by decide

theorem witness_StepRunsTheDecodedInstruction :
    let s := stateAt prot32 0x1000#64 0b00100#5 0#64 [0x74#8, 0x10#8, 0x90#8]
    s.ip.toNat ∉ s.exits ∧ fetchesBytes s s.ip [0x74#8, 0x10#8, 0x90#8] ∧
    decode s.config [0x74#8, 0x10#8, 0x90#8] = .ok (.jeRel8 [] 0x10#8) [0x90#8] :=
  ⟨by decide, ⟨rfl, rfl, rfl, trivial⟩, by decide⟩

theorem witness_StepAtEncodingCompletesNotTaken :
    let s := stateAt long48 0x400000#64 0b00000#5 0#64 [0x67#8, 0x75#8, 0x10#8]
    s.ip.toNat ∉ s.exits ∧ Instr.wf s.config (.jnzRel8 [.addrSize] 0x10#8) = true ∧
    Prefix.lock ∉ prefixesOf (.jnzRel8 [.addrSize] 0x10#8) ∧ fetchesBytes s s.ip (encode (.jnzRel8 [.addrSize] 0x10#8)) ∧
    takenAt (.jnzRel8 [.addrSize] 0x10#8) s = true ∧
    inBounds s.config (targetAt (.jnzRel8 [.addrSize] 0x10#8) s) ∧
    takenAt (.jnzRel8 [.addrSize] 0x10#8) { s with ZF := true } = false ∧
    fetchesBytes { s with ZF := true } s.ip (encode (.jnzRel8 [.addrSize] 0x10#8)) :=
  ⟨by decide, by decide, by decide, ⟨rfl, rfl, rfl, trivial⟩, by decide, by decide, by decide, ⟨rfl, rfl, rfl, trivial⟩⟩

theorem witness_FetchStopEndsTheStep :
    let s := stateAt protLow 0x1000#64 0b00000#5 0#64 [0xF0#8, 0x74#8, 0x10#8]
    let t := stateAt prot32 0x1000#64 0b00000#5 0#64 [0xF0#8, 0x74#8]
    s.ip.toNat ∉ s.exits ∧ fetchesBytes s s.ip [0xF0#8, 0x74#8] ∧ decode s.config [0xF0#8, 0x74#8] = .short ∧
    fetch s (offsetAfter s.config s.ip 2) = .fault (.gp0 0x1000#64) ∧
    t.ip.toNat ∉ t.exits ∧ fetchesBytes t t.ip [0xF0#8, 0x74#8] ∧ decode t.config [0xF0#8, 0x74#8] = .short ∧
    fetch t (offsetAfter t.config t.ip 2) = .refused (.fetchOutsideImage 0x1002#64) :=
  ⟨by decide, ⟨rfl, rfl, trivial⟩, by decide, rfl, by decide, ⟨rfl, rfl, trivial⟩, by decide, rfl⟩

theorem witness_DecoderRefusalEndsTheStep :
    let s := stateAt long48 0x400000#64 0b00000#5 0#64 [0x48#8]
    let t := stateAt long48 0x400000#64 0b00000#5 0#64 [0xF0#8, 0xF0#8]
    let u := stateAt long48 0x400000#64 0b00000#5 0#64 [0x66#8, 0x0F#8, 0x84#8]
    s.ip.toNat ∉ s.exits ∧ fetchesBytes s s.ip [0x48#8] ∧ decode s.config [0x48#8] = .refused .opcodeOutOfScope ∧
    fetchesBytes t t.ip [0xF0#8, 0xF0#8] ∧ decode t.config [0xF0#8, 0xF0#8] = .refused .duplicatePrefix ∧
    fetchesBytes u u.ip [0x66#8, 0x0F#8, 0x84#8] ∧
    decode u.config [0x66#8, 0x0F#8, 0x84#8] = .refused .nearJccWith66HIn64BitMode :=
  ⟨by decide, ⟨rfl, trivial⟩, by decide, ⟨rfl, rfl, trivial⟩, by decide, ⟨rfl, rfl, rfl, trivial⟩, by decide⟩

theorem witness_ExitComesFirst :
    let s := { stateAt prot32 0x1000#64 0b00000#5 0#64 [] with exits := [0x1000] }
    s.ip.toNat ∈ s.exits ∧ step s = .refused .exit := ⟨by decide, rfl⟩

theorem witness_StepFaultsAndRefusals :
    step (stateAt protLow 0x1002#64 0b00000#5 0#64 []) = .fault (.gp0 0x1002#64) ∧
    step (stateAt prot32 0x1000#64 0b00000#5 0#64 []) = .refused (.fetchOutsideImage 0x1000#64) ∧
    step (stateAt long48 0x1000#64 0b00000#5 0#64 [0x66#8, 0x0F#8, 0x84#8]) = .refused .nearJccWith66HIn64BitMode :=
  ⟨rfl, rfl, rfl⟩

theorem witness_V8086StepsAsReal : real16.mode = .real ∧ prot32.mode = .protectedMode := by decide

theorem witness_UpperCountBitsUnread :
    let s := stateAt prot32 0x1000#64 0b00000#5 0x00000001#64 [0xE3#8, 0x10#8]
    s.config.mode ≠ .long64 ∧ (0xFFFFFFFF00000001#64).toNat % 2 ^ 32 = s.RCX.toNat % 2 ^ 32 ∧
    (∀ z r, opOf (.jeRel8 [] 0x10#8) ≠ .count z r) ∧ opOf (.jecxz [] 0x10#8) = .count .bits32 0x10#8 :=
  ⟨by decide, by decide, by simp [opOf], rfl⟩

theorem witness_InvariantKept :
    let s := stateAt real16 0xFFFE#64 0b00000#5 0#64 [0x74#8, 0x10#8]
    s.Inv ∧ s.config.mode ≠ .long64 ∧ step s = .next { s with ip := 0x10000#64 } := ⟨by decide, by decide, rfl⟩

theorem witness_RunsKeepAllButIp :
    let s := stateAt prot32 0x1000#64 0b00000#5 0#64 [0x74#8, 0x10#8, 0x75#8, 0x10#8]
    Sys2Proof.core.run 2 s = .next { s with ip := 0x1014#64 } := rfl

theorem witness_TakenSelfJumpNeverEnds :
    let s := stateAt v86 0xFFFC#64 0b00100#5 0#64 [0x0F#8, 0x84#8, 0xFC#8, 0xFF#8]
    let t := stateAt prot32 0x12340000#64 0b00100#5 0#64 [0x0F#8, 0x84#8, 0xFA#8, 0xFF#8, 0xFF#8, 0xFF#8]
    let u := stateAt long48 0x400000#64 0b00000#5 0#64 [0xE3#8, 0xFE#8]
    (s.Inv ∧ s.ip.toNat ∉ s.exits ∧ fetchesBytes s s.ip [0x0F#8, nearOpcode .e, 0xFC#8, 0xFF#8] ∧
      decode s.config [0x0F#8, nearOpcode .e, 0xFC#8, 0xFF#8] = .ok (.jeRel16 [] 0xFFFC#16) [] ∧
      takenAt (.jeRel16 [] 0xFFFC#16) s = true ∧ s.ip.toNat ≤ 0xFFFF) ∧
    (t.Inv ∧ t.ip.toNat ∉ t.exits ∧ fetchesBytes t t.ip [0x0F#8, nearOpcode .e, 0xFA#8, 0xFF#8, 0xFF#8, 0xFF#8] ∧
      decode t.config [0x0F#8, nearOpcode .e, 0xFA#8, 0xFF#8, 0xFF#8, 0xFF#8] = .ok (.jeRel32 [] 0xFFFFFFFA#32) [] ∧
      takenAt (.jeRel32 [] 0xFFFFFFFA#32) t = true ∧
      ¬ (t.config.mode = .real ∨ t.config.mode = .v8086 ∨ operandSize t.config [] = .bits16)) ∧
    (u.Inv ∧ u.ip.toNat ∉ u.exits ∧ fetchesBytes u u.ip [0xE3#8, 0xFE#8] ∧
      decode u.config [0xE3#8, 0xFE#8] = .ok (.jrcxz [] 0xFE#8) [] ∧ takenAt (.jrcxz [] 0xFE#8) u = true ∧
      ¬ (u.config.mode = .real ∨ u.config.mode = .v8086 ∨ operandSize u.config [] = .bits16)) :=
  ⟨⟨by decide, by decide, ⟨rfl, rfl, rfl, rfl, trivial⟩, by decide, by decide, by decide⟩,
    ⟨by decide, by decide, ⟨rfl, rfl, rfl, rfl, rfl, rfl, trivial⟩, by decide, by decide, by decide⟩,
    ⟨by decide, by decide, ⟨rfl, rfl, trivial⟩, by decide, by decide, by decide⟩⟩

theorem witness_ImageReadAfterWrite :
    Memory.wf [(0, 1#8), (0xFFFFFFFFFFFFFFFF, 2#8)] = true ∧
    (∀ x, Memory.read [(7, 1#8)] x = Memory.read (Memory.write [] 7 1#8) x) := ⟨by decide, fun _ => rfl⟩

theorem witness_LoadedInstructionIsFetched :
    (stateAt prot32 0xFFFFFFFE#64 0b00000#5 0#64 []).Inv ∧ 16 ≤ 72 ∧ (tableBytes 16 0x0F87)[1]? = some 0x87#8 ∧
    (∀ k : Nat, k < 9 → fetchable prot32 (offsetAfter prot32 0xFFFFFFFE#64 k) = true) := by decide

end Sys2Proof.Tests
end

section
/-! PROOFS. The statements of 10_state.md: the invariant is kept by every step, and which registers a step reads. Both
rest on equations of `step` by what the exit test and the fetch answer. -/

namespace Sys2Proof.Machine

/-! ### The step by what the exit test and the fetch answer -/

theorem step_of_mem_exits {s : State} (h : s.ip.toNat ∈ s.exits) : step s = .refused .exit := by simp [step, h]

theorem step_of_fetchInstr_next {s : State} {i : Instr} (h : s.ip.toNat ∉ s.exits) (hi : fetchInstr s = .next i) :
    step s = exec i s := by simp [step, h, hi]

theorem step_of_fetchInstr_fault {s : State} {f : Fault} (h : s.ip.toNat ∉ s.exits) (hf : fetchInstr s = .fault f) :
    step s = .fault f := by simp [step, h, hf]

theorem step_of_fetchInstr_refused {s : State} {r : Refusal} (h : s.ip.toNat ∉ s.exits)
    (hr : fetchInstr s = .refused r) : step s = .refused r := by simp [step, h, hr]

/-- A step that answers a next state ran the instruction it fetched. -/
theorem exec_of_step_next {s t : State} (h : step s = .next t) : ∃ i, fetchInstr s = .next i ∧ exec i s = .next t := by
  by_cases hx : s.ip.toNat ∈ s.exits
  · rw [step_of_mem_exits hx] at h; cases h
  · cases hf : fetchInstr s with
    | next i => exact ⟨i, rfl, by rwa [step_of_fetchInstr_next hx hf] at h⟩
    | fault f => rw [step_of_fetchInstr_fault hx hf] at h; cases h
    | refused r => rw [step_of_fetchInstr_refused hx hf] at h; cases h

/-! ### What a completed step leaves, and where it goes -/

theorem nextOf_lt (p : Prefixes) (op : Op) (s : State) : (nextOf p op s).toNat < 2 ^ ipBits s.config := by
  rw [nextOf, addOffset_toNat]
  exact Nat.mod_lt _ (Nat.two_pow_pos _)

theorem targetFrom_nextOf_lt (p : Prefixes) (op : Op) (s : State) :
    (targetFrom s.config p op (nextOf p op s)).toNat < 2 ^ ipBits s.config := by
  rw [targetFrom_nextOf, BitVec.toNat_ofNat]
  exact Nat.lt_of_le_of_lt (Nat.mod_le _ _) (targetOffset_lt ..)

/-- A completed jump, taken or not, leaves `ip` within the width of the instruction pointer (R15). -/
theorem execOp_next_ip_lt {op : Op} {p : Prefixes} {s t : State} (h : execOp op p s = .next t) :
    t.ip.toNat < 2 ^ ipBits s.config := by
  rcases execOp_cases op p s with ⟨-, e⟩ | ⟨-, -, e⟩ | ⟨-, -, -, e⟩ | ⟨-, -, -, -, e⟩ | ⟨-, -, -, -, e⟩ <;>
    rw [e] at h <;> cases h
  · exact nextOf_lt p op s
  · exact targetFrom_nextOf_lt p op s

/-- A completed step writes `ip` and nothing else (R70). -/
theorem step_next_eq_withIp {s t : State} (h : step s = .next t) : t = s.withIp t.ip := by
  obtain ⟨i, -, hi⟩ := exec_of_step_next h
  rw [exec_eq_execOp] at hi
  exact execOp_next hi

theorem step_next_ip_lt {s t : State} (h : step s = .next t) : t.ip.toNat < 2 ^ ipBits s.config := by
  obtain ⟨i, -, hi⟩ := exec_of_step_next h
  rw [exec_eq_execOp] at hi
  exact execOp_next_ip_lt hi

/-- Writing `ip` keeps the invariant when the new offset is within the width of the instruction pointer. -/
theorem withIp_inv {s : State} {a : Offset} (hs : s.Inv) (ha : a.toNat < 2 ^ ipBits s.config) : (s.withIp a).Inv := by
  obtain ⟨hcfg, -, hcode, hexits⟩ := hs
  exact ⟨hcfg, fun hm => ipBits_other hm ▸ ha, hcode, hexits⟩

/-- Settles O50: a completed step writes `ip` alone, with an offset that fits the instruction pointer's width. -/
theorem invariantKept : Obligations.InvariantKept := by
  refine ⟨fun s t hs h => ?_, fun s t hm h => ?_⟩
  · rw [step_next_eq_withIp h]
    exact withIp_inv hs (step_next_ip_lt h)
  · have hlt := step_next_ip_lt h
    rwa [ipBits_other hm] at hlt

/-! ### Changes of the registers a condition may read -/

/-- `f` changes at most the flags and the count register, the same way whatever `ip` is. -/
structure ChangesOnlyRegisters (f : State → State) : Prop where
  ip : ∀ s, (f s).ip = s.ip
  config : ∀ s, (f s).config = s.config
  code : ∀ s, (f s).code = s.code
  exits : ∀ s, (f s).exits = s.exits
  withIp : ∀ s a, f (s.withIp a) = (f s).withIp a

theorem setRCX_changesOnlyRegisters (v : BitVec 64) : ChangesOnlyRegisters (fun t => { t with RCX := v }) :=
  ⟨fun _ => rfl, fun _ => rfl, fun _ => rfl, fun _ => rfl, fun _ _ => rfl⟩

theorem setFlags_changesOnlyRegisters (cf pf zf sf of : Bool) :
    ChangesOnlyRegisters (fun t => { t with CF := cf, PF := pf, ZF := zf, SF := sf, OF := of }) :=
  ⟨fun _ => rfl, fun _ => rfl, fun _ => rfl, fun _ => rfl, fun _ _ => rfl⟩

namespace ChangesOnlyRegisters

variable {f : State → State}

theorem fetch_eq (hf : ChangesOnlyRegisters f) (s : State) (off : Offset) :
    fetch (f s) off = fetch s off := by
  simp only [fetch, raise, hf.ip, hf.config, hf.code]

theorem fetchWindow_eq (hf : ChangesOnlyRegisters f) (s : State) (n : Nat) (off : Offset) :
    fetchWindow (f s) n off = fetchWindow s n off := by
  induction n generalizing off with
  | zero => rfl
  | succ n ih => simp only [fetchWindow, hf.fetch_eq, hf.config, ih]

theorem fetchInstr_eq (hf : ChangesOnlyRegisters f) (s : State) : fetchInstr (f s) = fetchInstr s := by
  simp only [fetchInstr, hf.fetchWindow_eq, hf.ip, hf.config]

theorem nextOf_eq (hf : ChangesOnlyRegisters f) (p : Prefixes) (op : Op) (s : State) :
    nextOf p op (f s) = nextOf p op s := by
  simp only [nextOf, hf.ip, hf.config]

theorem jumpTaken_mapNext (hf : ChangesOnlyRegisters f) (p : Prefixes) (op : Op) (s : State) :
    jumpTaken p op (f s) = mapNext f (jumpTaken p op s) := by
  simp only [jumpTaken, raise, hf.ip, hf.config, hf.nextOf_eq]
  split
  · simp only [mapNext, hf.withIp]
  · rfl

/-- The registers reach the outcome through the condition only: where the change leaves the condition of an encodable
operation as it was, the shared step is the same, and keeps the change. -/
theorem execOp_mapNext (hf : ChangesOnlyRegisters f) {op : Op} {p : Prefixes} {s : State}
    (ht : encodable s.config p op = true → taken op (f s) = taken op s) :
    execOp op p (f s) = mapNext f (execOp op p s) := by
  have hcfg := hf.config s
  cases he : encodable s.config p op with
  | false => rw [execOp_unencodable he, execOp_unencodable (by rwa [hcfg])]; rfl
  | true =>
    have he' : encodable (f s).config p op = true := by rwa [hcfg]
    by_cases hl : Prefix.lock ∈ p
    · rw [execOp_lock he hl, execOp_lock he' hl, hf.ip]; rfl
    · cases hs : taken op s with
      | false =>
        rw [execOp_notTaken he hl hs, execOp_notTaken he' hl ((ht he).trans hs), hf.nextOf_eq, mapNext, hf.withIp]
      | true => rw [execOp_taken he hl hs, execOp_taken he' hl ((ht he).trans hs), hf.jumpTaken_mapNext]

theorem exec_mapNext (hf : ChangesOnlyRegisters f) {i : Instr} {s : State}
    (ht : i.wf s.config = true → taken (opOf i) (f s) = taken (opOf i) s) :
    exec i (f s) = mapNext f (exec i s) := by
  rw [exec_eq_execOp, exec_eq_execOp]
  exact hf.execOp_mapNext ht

theorem step_mapNext (hf : ChangesOnlyRegisters f) {s : State}
    (ht : ∀ i : Instr, i.wf s.config = true → taken (opOf i) (f s) = taken (opOf i) s) :
    step (f s) = mapNext f (step s) := by
  have hfetch := hf.fetchInstr_eq s
  by_cases hx : s.ip.toNat ∈ s.exits
  · rw [step_of_mem_exits hx, step_of_mem_exits (by rwa [hf.ip, hf.exits])]; rfl
  · have hx' : (f s).ip.toNat ∉ (f s).exits := by rwa [hf.ip, hf.exits]
    cases h : fetchInstr s with
    | next i => rw [step_of_fetchInstr_next hx h, step_of_fetchInstr_next hx' (hfetch.trans h), hf.exec_mapNext (ht i)]
    | fault r => rw [step_of_fetchInstr_fault hx h, step_of_fetchInstr_fault hx' (hfetch.trans h)]; rfl
    | refused r => rw [step_of_fetchInstr_refused hx h, step_of_fetchInstr_refused hx' (hfetch.trans h)]; rfl

end ChangesOnlyRegisters

/-! ### What a condition reads -/

theorem condHolds_setRCX (cc : Cond) (s : State) (v : BitVec 64) :
    condHolds cc { s with RCX := v } = condHolds cc s := by cases cc <;> rfl

theorem countIsZero_setFlags (z : Size) (s : State) (cf pf zf sf of : Bool) :
    countIsZero z { s with CF := cf, PF := pf, ZF := zf, SF := sf, OF := of } = countIsZero z s := by cases z <;> rfl

/-- A flag condition (R63) reads no count register. -/
theorem taken_setRCX_of_ne_count {op : Op} (hop : ∀ z r, op ≠ .count z r) (s : State) (v : BitVec 64) :
    taken op { s with RCX := v } = taken op s := by
  cases op with
  | short cc r => exact condHolds_setRCX cc s v
  | count z r => exact absurd rfl (hop z r)
  | near16 cc r => exact condHolds_setRCX cc s v
  | near32 cc r => exact condHolds_setRCX cc s v

/-- CX and ECX are cut from the low half of the count register (R17). -/
theorem countIsZero_setRCX_of_low_eq {z : Size} (hz : z ≠ .bits64) {s : State} {v : BitVec 64}
    (hv : v.toNat % 2 ^ 32 = s.RCX.toNat % 2 ^ 32) : countIsZero z { s with RCX := v } = countIsZero z s := by
  cases z with
  | bits16 =>
    have hcx : cx { s with RCX := v } = cx s := by
      apply BitVec.eq_of_toNat_eq
      simp only [cx, BitVec.extractLsb'_toNat, Nat.shiftRight_zero]
      omega
    simp only [countIsZero, hcx]
  | bits32 =>
    have hecx : ecx { s with RCX := v } = ecx s := by
      apply BitVec.eq_of_toNat_eq
      simpa only [ecx, BitVec.extractLsb'_toNat, Nat.shiftRight_zero] using hv
    simp only [countIsZero, hecx]
  | bits64 => exact absurd rfl hz

/-- Outside 64-bit mode no address size is 64 (R52). -/
theorem addressSize_ne_bits64 {c : Config} (hm : c.mode ≠ .long64) (p : Prefixes) : addressSize c p ≠ .bits64 := by
  unfold addressSize
  rw [if_neg hm]
  split
  · cases c.defAddrSize <;> simp [toggledSize]
  · cases c.defAddrSize <;> simp [sameSize]

/-- JRCXZ, the one form that reads all of the count register, is not encodable outside 64-bit mode (R54, R89). -/
theorem count_size_ne_bits64 {c : Config} {p : Prefixes} {z : Size} {r : BitVec 8} (hm : c.mode ≠ .long64)
    (he : encodable c p (.count z r) = true) : z ≠ .bits64 := by
  have hz : addressSize c p = z := by
    simp only [encodable, formExists, Bool.and_eq_true, decide_eq_true_eq] at he
    exact he.2
  exact hz ▸ addressSize_ne_bits64 hm p

/-- Outside 64-bit mode a condition reads at most the low half of the count register (R64). -/
theorem taken_setRCX_of_low_eq {op : Op} {p : Prefixes} {s : State} {v : BitVec 64} (hm : s.config.mode ≠ .long64)
    (hv : v.toNat % 2 ^ 32 = s.RCX.toNat % 2 ^ 32) (he : encodable s.config p op = true) :
    taken op { s with RCX := v } = taken op s := by
  cases op with
  | count z r => exact countIsZero_setRCX_of_low_eq (count_size_ne_bits64 hm he) hv
  | short cc r => exact condHolds_setRCX cc s v
  | near16 cc r => exact condHolds_setRCX cc s v
  | near32 cc r => exact condHolds_setRCX cc s v

/-- Settles O49: registers reach an outcome through the condition alone, and each condition reads only its own. -/
theorem upperCountBitsUnread : Obligations.UpperCountBitsUnread := by
  refine ⟨fun s v hm hv => ?_, fun i s v hop => ?_, fun i s z r cf pf zf sf of hop => ?_⟩
  · exact (setRCX_changesOnlyRegisters v).step_mapNext fun i hwf => taken_setRCX_of_low_eq hm hv hwf
  · exact (setRCX_changesOnlyRegisters v).exec_mapNext fun _ => taken_setRCX_of_ne_count hop s v
  · refine (setFlags_changesOnlyRegisters cf pf zf sf of).exec_mapNext fun _ => ?_
    rw [hop]
    exact countIsZero_setFlags z s cf pf zf sf of

end Sys2Proof.Machine
end

section
/-! PROOFS. The statements of 20_memory.md: the code image as a function of the offset, the fetch, and the checks on the
target of a taken jump. -/

namespace Sys2Proof.Machine

/-! ### The code image -/

theorem Memory.read_write_same (m : Memory) (a : Nat) (b : Byte) : (m.write a b).read a = some b := by
  induction m with
  | nil => simp [Memory.write, Memory.read]
  | cons cell rest ih =>
    obtain ⟨k, v⟩ := cell
    rcases Nat.lt_trichotomy a k with hlt | rfl | hgt
    · simp [Memory.write, Memory.read, hlt]
    · simp [Memory.write, Memory.read]
    · have hnlt : ¬ a < k := Nat.lt_asymm hgt
      simpa [Memory.write, Memory.read, hnlt, hgt.ne, hgt.ne'] using ih

theorem Memory.read_write_of_ne (m : Memory) {a x : Nat} (b : Byte) (hx : x ≠ a) :
    (m.write a b).read x = m.read x := by
  induction m with
  | nil => simp [Memory.write, Memory.read, hx.symm]
  | cons cell rest ih =>
    obtain ⟨k, v⟩ := cell
    rcases Nat.lt_trichotomy a k with hlt | rfl | hgt
    · simp [Memory.write, Memory.read, hlt, hx.symm]
    · simp [Memory.write, Memory.read, hx.symm]
    · have hnlt : ¬ a < k := Nat.lt_asymm hgt
      simp only [Memory.write, Memory.read, hnlt, hgt.ne', if_false, ih]

/-- In canonical form an image has one entry per offset, so what it reads there is what it lists there. -/
theorem Memory.mem_iff_read {m : Memory} (h : m.wf = true) (a : Nat) (b : Byte) :
    (a, b) ∈ m ↔ m.read a = some b := by
  obtain ⟨hrise, -⟩ := (Memory.wf_iff m).mp h
  clear h
  induction m with
  | nil => simp [Memory.read]
  | cons cell rest ih =>
    obtain ⟨k, v⟩ := cell
    obtain ⟨hk, hrest⟩ := List.pairwise_cons.mp hrise
    rw [List.mem_cons, ih hrest]
    by_cases hka : k = a
    · subst hka
      have hnot : Memory.read rest k ≠ some b := fun hr => Nat.lt_irrefl k (hk _ ((ih hrest).mpr hr))
      simp [Memory.read, hnot, eq_comm]
    · simp [Memory.read, hka, Ne.symm hka]

/-- Images in canonical form are equal when they read alike. -/
theorem Memory.eq_of_read_eq {m n : Memory} (hm : m.wf = true) (hn : n.wf = true) (h : ∀ x, m.read x = n.read x) :
    m = n := by
  have hanti : Std.Antisymm (fun x y : Host.Cell => x.1 < y.1) := ⟨fun _ _ h h' => absurd h' (Nat.lt_asymm h)⟩
  have hirrefl : Std.Irrefl (fun x y : Host.Cell => x.1 < y.1) := ⟨fun x => Nat.lt_irrefl x.1⟩
  refine ((Memory.wf_iff m).mp hm).1.eq_of_mem_iff ((Memory.wf_iff n).mp hn).1 fun ⟨a, b⟩ => ?_
  rw [Memory.mem_iff_read hm, Memory.mem_iff_read hn, h a]

/-- Settles O55: a write is read back and seen nowhere else, and an image is determined by its reads. -/
theorem imageReadAfterWrite : Obligations.ImageReadAfterWrite :=
  ⟨fun m a b _ => ⟨m.read_write_same a b, fun _ hx => m.read_write_of_ne b hx⟩,
    fun _ _ hm hn h => Memory.eq_of_read_eq hm hn h⟩

/-! ### The general-protection fault of a mode -/

theorem targetFault_of_real_or_v8086 {c : Config} (h : c.mode = .real ∨ c.mode = .v8086) (a : Offset) :
    targetFault c a = .gp a := if_pos h

theorem targetFault_of_protected_or_compat {c : Config} (h : c.mode = .protectedMode ∨ c.mode = .compat) (a : Offset) :
    targetFault c a = .gp0 a := by
  rcases h with h | h <;> simp [targetFault, h]

theorem targetFault_of_long64 {c : Config} (h : c.mode = .long64) (a : Offset) : targetFault c a = .gp0 a := by
  simp [targetFault, h]

theorem ne_long64_of_real_or_v8086 {c : Config} (h : c.mode = .real ∨ c.mode = .v8086) : c.mode ≠ .long64 := by
  rcases h with h | h <;> simp [h]

theorem ne_long64_of_protected_or_compat {c : Config} (h : c.mode = .protectedMode ∨ c.mode = .compat) :
    c.mode ≠ .long64 := by
  rcases h with h | h <;> simp [h]

/-! ### The fetch -/

theorem fetchable_of_long64 {c : Config} (h : c.mode = .long64) (off : Offset) :
    fetchable c off = canonical c.vaBits off := if_pos h

/-- The limit check on all 64 bits of the offset is the zero upper half with the check on the lower half (R29). -/
theorem fetchable_iff_of_ne_long64 {c : Config} (h : c.mode ≠ .long64) (off : Offset) :
    fetchable c off = true ↔ off.toNat ≤ c.csLimit.toNat := by
  have hlimit := c.csLimit.isLt
  have hoff := off.isLt
  simp only [fetchable, if_neg h, Bool.and_eq_true, decide_eq_true_eq, BitVec.le_def, BitVec.toNat_setWidth,
    ← BitVec.toNat_inj, BitVec.extractLsb'_toNat, Nat.shiftRight_eq_div_pow, BitVec.toNat_ofNat]
  omega

theorem fetch_of_not_fetchable {s : State} {off : Offset} (h : fetchable s.config off = false) :
    fetch s off = .fault (targetFault s.config s.ip) := by
  simp [fetch, h, raise_gp]

theorem fetch_of_read_none {s : State} {off : Offset} (h : fetchable s.config off = true)
    (hr : s.code.read off.toNat = none) : fetch s off = .refused (.fetchOutsideImage off) := by
  simp [fetch, h, hr]

theorem fetch_of_limit_lt {s : State} {off : Offset} (hm : s.config.mode ≠ .long64)
    (h : s.config.csLimit.toNat < off.toNat) : fetch s off = .fault (targetFault s.config s.ip) :=
  fetch_of_not_fetchable <| Bool.eq_false_iff.mpr fun hf =>
    Nat.not_le_of_lt h ((fetchable_iff_of_ne_long64 hm off).mp hf)

/-- Settles O41: the mode's fault exactly outside the fetchable offsets, and within them what the image reads. -/
theorem fetchPrimitive : Obligations.FetchPrimitive := by
  refine fun s off => ⟨fun hm hc => ?_, fun hm hlt => ?_, fun hm hlt => ?_, fun hin => ?_⟩
  · rw [fetch_of_not_fetchable ((fetchable_of_long64 hm off).trans hc), targetFault_of_long64 hm]
  · rw [fetch_of_limit_lt (ne_long64_of_protected_or_compat hm) hlt, targetFault_of_protected_or_compat hm]
  · rw [fetch_of_limit_lt (ne_long64_of_real_or_v8086 hm) hlt, targetFault_of_real_or_v8086 hm]
  · have hf : fetchable s.config off = true := by
      rcases hin with ⟨hm, hc⟩ | ⟨hm, hle⟩
      · rwa [fetchable_of_long64 hm]
      · exact (fetchable_iff_of_ne_long64 hm off).mpr hle
    exact ⟨fetch_of_read_none hf, fun b hr => (fetch_next_iff s off b).mpr ⟨hf, hr⟩⟩

/-! ### The bounds of a target -/

theorem inBounds_iff_of_protected_or_compat {c : Config} (h : c.mode = .protectedMode ∨ c.mode = .compat) (t : Nat) :
    inBounds c t ↔ t ≤ c.csLimit.toNat := by
  rcases h with h | h <;> simp [inBounds, h]

theorem inBounds_iff_of_real_or_v8086 {c : Config} (h : c.mode = .real ∨ c.mode = .v8086) (t : Nat) :
    inBounds c t ↔ t ≤ c.csLimit.toNat ∧ t ≤ 0xFFFF := by
  rcases h with h | h <;> simp [inBounds, h]

/-- In every mode with a limit, a target in bounds is within it (R34). -/
theorem le_csLimit_of_inBounds {c : Config} {t : Nat} (hm : c.mode ≠ .long64) (h : inBounds c t) :
    t ≤ c.csLimit.toNat := by
  cases hmode : c.mode with
  | real => exact ((inBounds_iff_of_real_or_v8086 (.inl hmode) t).mp h).1
  | v8086 => exact ((inBounds_iff_of_real_or_v8086 (.inr hmode) t).mp h).1
  | protectedMode => exact (inBounds_iff_of_protected_or_compat (.inl hmode) t).mp h
  | compat => exact (inBounds_iff_of_protected_or_compat (.inr hmode) t).mp h
  | long64 => exact absurd hmode hm

theorem targetAllowed_of_long64 {c : Config} (h : c.mode = .long64) (t : Offset) :
    targetAllowed c t = canonical c.vaBits t := by
  simp [targetAllowed, h]

/-- Outside 64-bit mode the check on a 32-bit target is the check on its value. -/
theorem targetAllowed_setWidth_iff {c : Config} (hm : c.mode ≠ .long64) (t : BitVec 32) :
    targetAllowed c (t.setWidth 64) = true ↔ inBounds c t.toNat := by
  have ht : t.toNat < 2 ^ ipBits c := by rw [ipBits_other hm]; exact t.isLt
  rw [← BitVec.ofNat_toNat]
  exact targetAllowed_iff c t.toNat ht

/-- Under operand size 16 the cut leaves 16 bits (R67). -/
theorem targetFrom_le_of_bits16 {c : Config} {p : Prefixes} (h : operandSize c p = .bits16) (op : Op) (next : Offset) :
    (targetFrom c p op next).toNat ≤ 0xFFFF := by
  rw [targetFrom_toNat, if_pos h]
  omega

/-! ### A taken jump to a target that does not pass -/

/-- A taken jump whose target does not pass raises the mode's general-protection fault (R69). -/
theorem exec_of_target_denied {i : Instr} {s : State} (hwf : i.wf s.config = true) (hl : Prefix.lock ∉ prefixesOf i)
    (ht : takenAt i s = true) (hd : targetAllowed s.config (BitVec.ofNat 64 (targetAt i s)) = false) :
    exec i s = .fault (targetFault s.config s.ip) := by
  rw [exec_eq_execOp, execOp_taken hwf hl ht, jumpTaken, targetFrom_nextOf, ← relInt_eq]
  simp only [targetAt] at hd
  simp [hd, raise_gp]

theorem exec_of_outOfBounds {i : Instr} {s : State} (hwf : i.wf s.config = true) (hl : Prefix.lock ∉ prefixesOf i)
    (ht : takenAt i s = true) (hb : ¬ inBounds s.config (targetAt i s)) :
    exec i s = .fault (targetFault s.config s.ip) :=
  exec_of_target_denied hwf hl ht <| Bool.eq_false_iff.mpr fun ha =>
    hb ((targetAllowed_iff _ _ (targetOffset_lt ..)).mp ha)

/-- Settles O30: outside 64-bit mode the checks are the bounds of the mode, and a taken jump out of them faults. -/
theorem limitAndSixtyFourKBounds : Obligations.LimitAndSixtyFourKBounds := by
  refine ⟨fun c t hm => ?_, fun c t hm => ?_, fun c p op next h => targetFrom_le_of_bits16 h op next, fun c hm => ?_,
    fun i s hm hwf hl ht => ⟨fun hlt => ?_, fun hreal hlt => ?_⟩⟩
  · rw [targetAllowed_setWidth_iff (ne_long64_of_protected_or_compat hm), inBounds_iff_of_protected_or_compat hm]
  · rw [targetAllowed_setWidth_iff (ne_long64_of_real_or_v8086 hm), inBounds_iff_of_real_or_v8086 hm]
  · rw [targetAllowed_setWidth_iff (ne_long64_of_protected_or_compat hm), inBounds_iff_of_protected_or_compat hm]
  · exact exec_of_outOfBounds hwf hl ht fun hb => Nat.not_le_of_lt hlt (le_csLimit_of_inBounds hm hb)
  · rw [← targetFault_of_real_or_v8086 hreal]
    refine exec_of_outOfBounds hwf hl ht fun hb => ?_
    obtain ⟨-, hle⟩ := (inBounds_iff_of_real_or_v8086 hreal _).mp hb
    exact Nat.not_le_of_lt hlt hle

/-! ### Canonical form -/

/-- The arithmetic shift by `k` gives the word whose bits are all `b` exactly when bits 63 down to `k` are all `b`. -/
theorem sshiftRight_eq_iff {k : Nat} (hk : k ≤ 63) (t : Offset) {x : Offset} {b : Bool}
    (hx : ∀ j, j < 64 → x.getLsbD j = b) :
    t.sshiftRight k = x ↔ ∀ j, k ≤ j → j ≤ 63 → t.getLsbD j = b := by
  constructor
  · rintro rfl j hkj hj
    have hbit := hx (j - k) (by omega)
    rw [BitVec.getLsbD_sshiftRight] at hbit
    simpa [show k + (j - k) = j by omega, show j < 64 by omega, show ¬ 64 ≤ j - k by omega] using hbit
  · intro h
    refine BitVec.eq_of_getLsbD_eq fun j hj => ?_
    rw [BitVec.getLsbD_sshiftRight, hx j hj, BitVec.msb_eq_getLsbD_last]
    by_cases hkj : k + j < 64
    · simpa [hkj, show ¬ 64 ≤ j by omega] using h (k + j) (by omega) (by omega)
    · simpa [hkj, show ¬ 64 ≤ j by omega] using h 63 hk (by omega)

/-- R36 as the spec words it: bits 63 down to `va - 1` are all equal. -/
theorem canonical_iff_bits_eq {va : Nat} (hva : va ≤ 64) (t : Offset) :
    canonical va t = true ↔ ∀ j, va - 1 ≤ j → j ≤ 63 → t.getLsbD j = t.getLsbD 63 := by
  have hk : va - 1 ≤ 63 := by omega
  have hzero := sshiftRight_eq_iff hk t (x := 0#64) (b := false) (by simp)
  have hones := sshiftRight_eq_iff hk t (x := BitVec.allOnes 64) (b := true)
    (fun j hj => by simp only [BitVec.getLsbD_allOnes, hj, decide_true])
  simp only [canonical, Bool.or_eq_true, decide_eq_true_eq, hzero, hones]
  constructor
  · rintro (h | h) j hkj hj <;> rw [h j hkj hj, h 63 hk le_rfl]
  · intro h
    cases hsign : t.getLsbD 63 with
    | false => exact .inl fun j hkj hj => (h j hkj hj).trans hsign
    | true => exact .inr fun j hkj hj => (h j hkj hj).trans hsign

/-- The bits from the sign bit of the low `va` bits on are all equal exactly when sign extension restores the offset. -/
theorem bits_eq_iff_eq_signExtend {va : Nat} (h1 : 1 ≤ va) (hva : va ≤ 64) (t : Offset) :
    (∀ j, va - 1 ≤ j → j ≤ 63 → t.getLsbD j = t.getLsbD 63) ↔ t = (t.setWidth va).signExtend 64 := by
  have hbit : ∀ j, j < 64 →
      ((t.setWidth va).signExtend 64).getLsbD j = if j < va then t.getLsbD j else t.getLsbD (va - 1) := by
    intro j hj
    rw [BitVec.getLsbD_signExtend, BitVec.msb_setWidth, BitVec.getLsbD_setWidth]
    by_cases hjv : j < va <;> simp [hj, hjv, show 0 < va by omega]
  constructor
  · intro h
    refine BitVec.eq_of_getLsbD_eq fun j hj => ?_
    rw [hbit j hj]
    split
    · rfl
    · rw [h j (by omega) (by omega), h (va - 1) le_rfl (by omega)]
  · intro h
    have hsign : ∀ j, va - 1 ≤ j → j ≤ 63 → t.getLsbD j = t.getLsbD (va - 1) := by
      intro j hkj hj
      by_cases hjv : j < va
      · rw [show j = va - 1 by omega]
      · rw [h, hbit j (by omega), if_neg hjv, ← h]
    intro j hkj hj
    rw [hsign j hkj hj, hsign 63 (by omega) le_rfl]

/-- Settles O31: canonical form by bits, by sign extension and by ranges, and the fault of a taken jump without it. -/
theorem canonicalForm : Obligations.CanonicalForm := by
  refine ⟨fun va t h1 hva => ⟨canonical_iff_bits_eq hva t, ?_⟩, fun t => ?_, fun t => ?_,
    fun c t hm => targetAllowed_of_long64 hm t, fun i s hm hwf hl ht hc => ?_⟩
  · exact (canonical_iff_bits_eq hva t).trans (bits_eq_iff_eq_signExtend h1 hva t)
  · rw [canonical_iff]
    omega
  · rw [canonical_iff]
    omega
  · rw [← targetFault_of_long64 hm]
    exact exec_of_target_denied hwf hl ht ((targetAllowed_of_long64 hm _).trans hc)

end Sys2Proof.Machine
end

section
/-! PROOFS. The statements of 30_encoding.md: the decoder and the encoder are inverse to each other, the size attributes
and the forms they admit, what the decoder refuses, and the equivalences of encodings (aliases, opposite conditions, an
idle 67H). -/

namespace Sys2Proof.Machine

/-! ### Bytes and their parts -/

theorem highNibble_toNat (b : Byte) : (b.extractLsb' 4 4).toNat = b.toNat / 16 := by
  have := b.isLt
  rw [BitVec.extractLsb'_toNat, Nat.shiftRight_eq_div_pow]
  omega

theorem highNibble_eq_iff (b : Byte) {n : Nat} (hn : n < 16) :
    b.extractLsb' 4 4 = BitVec.ofNat 4 n ↔ 16 * n ≤ b.toNat ∧ b.toNat ≤ 16 * n + 15 := by
  rw [← BitVec.toNat_inj, highNibble_toNat, BitVec.toNat_ofNat]
  omega

/-- An opcode byte with `0111` above is the short opcode of the condition below (R44). -/
theorem shortOpcode_ofNibble {b : Byte} (h : b.extractLsb' 4 4 = 0x7#4) :
    shortOpcode (Cond.ofNibble (b.extractLsb' 0 4)) = b := by
  rw [shortOpcode, nibble_ofNibble, ← h, BitVec.extractLsb'_append_extractLsb']

/-- An opcode byte with `1000` above is the near opcode of the condition below (R46, R47). -/
theorem nearOpcode_ofNibble {b : Byte} (h : b.extractLsb' 4 4 = 0x8#4) :
    nearOpcode (Cond.ofNibble (b.extractLsb' 0 4)) = b := by
  rw [nearOpcode, nibble_ofNibble, ← h, BitVec.extractLsb'_append_extractLsb']

theorem shortOpcode_parts (cc : Cond) :
    (shortOpcode cc).toNat = 0x70 + (Cond.nibble cc).toNat ∧ (shortOpcode cc).extractLsb' 4 4 = 0x7#4 ∧
      (shortOpcode cc).extractLsb' 0 4 = Cond.nibble cc := by
  cases cc <;> decide

theorem nearOpcode_parts (cc : Cond) :
    (nearOpcode cc).toNat = 0x80 + (Cond.nibble cc).toNat ∧ (nearOpcode cc).extractLsb' 4 4 = 0x8#4 ∧
      (nearOpcode cc).extractLsb' 0 4 = Cond.nibble cc := by
  cases cc <;> decide

/-- Cutting two joined offset bytes gives them back (R49). -/
theorem cut_joinBytes16 (b0 b1 : Byte) :
    (joinBytes16 b0 b1).extractLsb' 0 8 = b0 ∧ (joinBytes16 b0 b1).extractLsb' 8 8 = b1 :=
  ⟨BitVec.extractLsb'_append_eq_right, BitVec.extractLsb'_append_eq_left⟩

/-- Cutting four joined offset bytes gives them back (R49). -/
theorem cut_joinBytes32 (b0 b1 b2 b3 : Byte) :
    (joinBytes32 b0 b1 b2 b3).extractLsb' 0 8 = b0 ∧ (joinBytes32 b0 b1 b2 b3).extractLsb' 8 8 = b1 ∧
      (joinBytes32 b0 b1 b2 b3).extractLsb' 16 8 = b2 ∧ (joinBytes32 b0 b1 b2 b3).extractLsb' 24 8 = b3 := by
  unfold joinBytes32
  refine ⟨BitVec.extractLsb'_append_eq_right, ?_, ?_, ?_⟩
  · rw [BitVec.extractLsb'_append_eq_of_le (by decide)]
    exact BitVec.extractLsb'_append_eq_right
  · rw [BitVec.extractLsb'_append_eq_of_le (by decide), BitVec.extractLsb'_append_eq_of_le (by decide)]
    exact BitVec.extractLsb'_append_eq_right
  · rw [BitVec.extractLsb'_append_eq_of_le (by decide), BitVec.extractLsb'_append_eq_of_le (by decide)]
    exact BitVec.extractLsb'_append_eq_left

theorem prefixOfByte_eq_none {b : Byte} (h66 : b.toNat ≠ 0x66) (h67 : b.toNat ≠ 0x67) (hF0 : b.toNat ≠ 0xF0) :
    prefixOfByte b = none := by
  have hne (v : Byte) (h : b.toNat ≠ v.toNat) : b ≠ v := fun e => h (congrArg _ e)
  rw [prefixOfByte, if_neg (hne 0x66#8 h66), if_neg (hne 0x67#8 h67), if_neg (hne 0xF0#8 hF0)]

/-! ### The two size attributes -/

theorem operandSize_of_long64 {c : Config} (h : c.mode = .long64) (p : Prefixes) : operandSize c p = .bits64 := if_pos h

theorem operandSize_of_not_mem {c : Config} {p : Prefixes} (h : c.mode ≠ .long64) (hp : Prefix.opSize ∉ p) :
    operandSize c p = sameSize c.defOpSize := by rw [operandSize, if_neg h, if_neg hp]

theorem operandSize_of_mem {c : Config} {p : Prefixes} (h : c.mode ≠ .long64) (hp : Prefix.opSize ∈ p) :
    operandSize c p = toggledSize c.defOpSize := by rw [operandSize, if_neg h, if_pos hp]

theorem addressSize_of_long64_not_mem {c : Config} {p : Prefixes} (h : c.mode = .long64) (hp : Prefix.addrSize ∉ p) :
    addressSize c p = .bits64 := by rw [addressSize, if_pos h, if_neg hp]

theorem addressSize_of_long64_mem {c : Config} {p : Prefixes} (h : c.mode = .long64) (hp : Prefix.addrSize ∈ p) :
    addressSize c p = .bits32 := by rw [addressSize, if_pos h, if_pos hp]

theorem addressSize_of_not_mem {c : Config} {p : Prefixes} (h : c.mode ≠ .long64) (hp : Prefix.addrSize ∉ p) :
    addressSize c p = sameSize c.defAddrSize := by rw [addressSize, if_neg h, if_neg hp]

theorem addressSize_of_mem {c : Config} {p : Prefixes} (h : c.mode ≠ .long64) (hp : Prefix.addrSize ∈ p) :
    addressSize c p = toggledSize c.defAddrSize := by rw [addressSize, if_neg h, if_pos hp]

/-- A default size and its toggle are 16 and 32, in one order or the other. -/
theorem sameSize_or_toggledSize_eq (d : DefaultSize) {z : Size} (hz : z ≠ .bits64) :
    sameSize d = z ∨ toggledSize d = z := by
  cases d <;> cases z <;> simp [sameSize, toggledSize] at hz ⊢

/-- Outside 64-bit mode an operand size of 16 or 32 is reached without 66H or with it (R51). -/
theorem operandSize_reached {c : Config} (h : c.mode ≠ .long64) {z : Size} (hz : z ≠ .bits64) :
    operandSize c [] = z ∨ operandSize c [.opSize] = z := by
  rw [operandSize_of_not_mem h (List.not_mem_nil), operandSize_of_mem h (List.mem_singleton_self _)]
  exact sameSize_or_toggledSize_eq _ hz

/-- Outside 64-bit mode an address size of 16 or 32 is reached without 67H or with it (R52). -/
theorem addressSize_reached {c : Config} (h : c.mode ≠ .long64) {z : Size} (hz : z ≠ .bits64) :
    addressSize c [] = z ∨ addressSize c [.addrSize] = z := by
  rw [addressSize_of_not_mem h (List.not_mem_nil), addressSize_of_mem h (List.mem_singleton_self _)]
  exact sameSize_or_toggledSize_eq _ hz

/-- Under every configuration address size 32 is reached (R52). -/
theorem addressSize_bits32_reached (c : Config) : addressSize c [] = .bits32 ∨ addressSize c [.addrSize] = .bits32 := by
  by_cases h : c.mode = .long64
  · exact .inr (addressSize_of_long64_mem h (List.mem_singleton_self _))
  · exact addressSize_reached h (by decide)

theorem addressSize_ne_bits16 {c : Config} (h : c.mode = .long64) (p : Prefixes) : addressSize c p ≠ .bits16 := by
  by_cases hp : Prefix.addrSize ∈ p
  · simp [addressSize_of_long64_mem h hp]
  · simp [addressSize_of_long64_not_mem h hp]

theorem operandSize_ne_bits64 {c : Config} (hm : c.mode ≠ .long64) (p : Prefixes) : operandSize c p ≠ .bits64 := by
  by_cases hp : Prefix.opSize ∈ p
  · rw [operandSize_of_mem hm hp]; cases c.defOpSize <;> simp [toggledSize]
  · rw [operandSize_of_not_mem hm hp]; cases c.defOpSize <;> simp [sameSize]

/-! ### Which operations have bytes -/

theorem encodable_short_iff {c : Config} {p : Prefixes} {cc : Cond} {r : BitVec 8} :
    encodable c p (.short cc r) = true ↔ p.Nodup := by simp [encodable, formExists]

theorem encodable_count_iff {c : Config} {p : Prefixes} {z : Size} {r : BitVec 8} :
    encodable c p (.count z r) = true ↔ p.Nodup ∧ addressSize c p = z := by simp [encodable, formExists]

theorem encodable_near16_iff {c : Config} {p : Prefixes} {cc : Cond} {r : BitVec 16} :
    encodable c p (.near16 cc r) = true ↔ p.Nodup ∧ operandSize c p = .bits16 := by simp [encodable, formExists]

theorem encodable_near32_iff {c : Config} {p : Prefixes} {cc : Cond} {r : BitVec 32} :
    encodable c p (.near32 cc r) = true ↔
      p.Nodup ∧ (operandSize c p = .bits32 ∨ c.mode = .long64 ∧ Prefix.opSize ∉ p) := by
  simp [encodable, formExists]

theorem nodup_of_encodable {c : Config} {p : Prefixes} {op : Op} (h : encodable c p op = true) : p.Nodup := by
  simp only [encodable, Bool.and_eq_true, decide_eq_true_eq] at h
  exact h.1

@[simp] theorem wf_toInstr (op : Op) (p : Prefixes) (c : Config) : (op.toInstr p).wf c = encodable c p op := by
  rw [Instr.wf, opOf_toInstr, prefixesOf_toInstr]

@[simp] theorem encode_toInstr (op : Op) (p : Prefixes) : encode (op.toInstr p) = encodeOp p op := by
  rw [encode, opOf_toInstr, prefixesOf_toInstr]

@[simp] theorem canonical_toInstr (op : Op) (p : Prefixes) : (op.toInstr p).canonical = op.toInstr p := by
  rw [Instr.canonical, opOf_toInstr, prefixesOf_toInstr]

@[simp] theorem opOf_canonical (i : Instr) : opOf i.canonical = opOf i := opOf_toInstr ..

@[simp] theorem prefixesOf_canonical (i : Instr) : prefixesOf i.canonical = prefixesOf i := prefixesOf_toInstr ..

/-! ### What the decoder reads -/

theorem decode_opcode {c : Config} {p : Prefixes} {b : Byte} (hp : p.Nodup) (hb : prefixOfByte b = none)
    (bs : List Byte) : decode c (p.map prefixByte ++ b :: bs) = decodeOpcode c p b bs := by
  rw [decode_prefixes c p _ hp, decodeFrom, hb]

theorem decode_shortOpcode (c : Config) {p : Prefixes} (hp : p.Nodup) (cc : Cond) (r : Byte) (rest : List Byte) :
    decode c (p.map prefixByte ++ shortOpcode cc :: r :: rest) = .ok (shortInstr cc p r) rest := by
  obtain ⟨-, hhigh, hlow⟩ := shortOpcode_parts cc
  have hb : prefixOfByte (shortOpcode cc) = none := by cases cc <;> decide
  rw [decode_opcode hp hb]
  simp [decodeOpcode, hhigh, hlow]

theorem decode_countOpcode (c : Config) {p : Prefixes} (hp : p.Nodup) (r : Byte) (rest : List Byte) :
    decode c (p.map prefixByte ++ 0xE3#8 :: r :: rest) = .ok (countInstr (addressSize c p) p r) rest := by
  rw [decode_opcode hp rfl]
  rfl

theorem decode_nearOpcode (c : Config) {p : Prefixes} (hp : p.Nodup) (cc : Cond) (bs : List Byte) :
    decode c (p.map prefixByte ++ 0x0F#8 :: nearOpcode cc :: bs) = decodeNear c p cc bs := by
  obtain ⟨-, hhigh, hlow⟩ := nearOpcode_parts cc
  rw [decode_opcode hp rfl]
  simp [decodeOpcode, hhigh, hlow]

theorem decodeNear_of_bits16 {c : Config} {p : Prefixes} (h : operandSize c p = .bits16) (cc : Cond) (b0 b1 : Byte)
    (rest : List Byte) : decodeNear c p cc (b0 :: b1 :: rest) = .ok (near16Instr cc p (joinBytes16 b0 b1)) rest := by
  have hm : c.mode ≠ .long64 := fun hm => by simp [operandSize_of_long64 hm] at h
  simp [decodeNear, hm, h]

theorem decodeNear_of_ne_bits16 {c : Config} {p : Prefixes} (h : operandSize c p ≠ .bits16)
    (h66 : ¬ (c.mode = .long64 ∧ Prefix.opSize ∈ p)) (cc : Cond) (b0 b1 b2 b3 : Byte) (rest : List Byte) :
    decodeNear c p cc (b0 :: b1 :: b2 :: b3 :: rest) = .ok (near32Instr cc p (joinBytes32 b0 b1 b2 b3)) rest := by
  rw [decodeNear, if_neg h66, if_neg h]

/-- A `cd` form exists exactly where the decoder neither takes the `cw` form nor refuses 66H (R53). -/
theorem near32_exists_iff {c : Config} {p : Prefixes} :
    (operandSize c p = .bits32 ∨ c.mode = .long64 ∧ Prefix.opSize ∉ p) ↔
      operandSize c p ≠ .bits16 ∧ ¬ (c.mode = .long64 ∧ Prefix.opSize ∈ p) := by
  by_cases hm : c.mode = .long64
  · simp [operandSize_of_long64 hm, hm]
  · have h64 := operandSize_ne_bits64 hm p
    cases hz : operandSize c p <;> simp [hm, hz] at h64 ⊢

/-- The decoder reads the bytes of an operation as its canonical instruction. -/
theorem decode_encodeOp {c : Config} {p : Prefixes} {op : Op} (h : encodable c p op = true) (rest : List Byte) :
    decode c (encodeOp p op ++ rest) = .ok (op.toInstr p) rest := by
  rw [encodeOp, List.append_assoc]
  cases op with
  | short cc r => exact decode_shortOpcode c (encodable_short_iff.mp h) cc r rest
  | count z r =>
    obtain ⟨hp, rfl⟩ := encodable_count_iff.mp h
    exact decode_countOpcode c hp r rest
  | near16 cc r =>
    obtain ⟨hp, hz⟩ := encodable_near16_iff.mp h
    exact (decode_nearOpcode c hp cc _).trans
      ((decodeNear_of_bits16 hz cc _ _ rest).trans (by rw [joinBytes16_cut]; rfl))
  | near32 cc r =>
    obtain ⟨hp, hz⟩ := encodable_near32_iff.mp h
    obtain ⟨h16, h66⟩ := near32_exists_iff.mp hz
    exact (decode_nearOpcode c hp cc _).trans
      ((decodeNear_of_ne_bits16 h16 h66 cc _ _ _ _ rest).trans (by rw [joinBytes32_cut]; rfl))

/-- Settles O6: an instruction decodes from its bytes as its operation does, and `canonical` keeps the operation. -/
theorem decodeOfEncode : Obligations.DecodeOfEncode :=
  ⟨fun _ _ rest hwf => decode_encodeOp hwf rest, fun i => ⟨opOf_canonical i, prefixesOf_canonical i⟩,
    canonical_toInstr⟩

/-! ### The bytes of what was decoded -/

/-- `i` is the canonical instruction of an operation that exists behind `p`, and `bs` are its opcode and offset bytes
with `rest` behind them. -/
def ReadsOperation (c : Config) (p : Prefixes) (bs : List Byte) (i : Instr) (rest : List Byte) : Prop :=
  ∃ op, formExists c p op = true ∧ i = op.toInstr p ∧ bs = opBytes op ++ rest

theorem decodeNear_eq_ok {c : Config} {p : Prefixes} {cc : Cond} {bs rest : List Byte} {i : Instr}
    (h : decodeNear c p cc bs = .ok i rest) : ReadsOperation c p (0x0F#8 :: nearOpcode cc :: bs) i rest := by
  unfold decodeNear at h
  split at h
  · cases h
  · next h66 =>
    split at h
    · next h16 =>
      split at h
      · next b0 b1 _ =>
        cases h
        obtain ⟨e0, e1⟩ := cut_joinBytes16 b0 b1
        exact ⟨.near16 cc (joinBytes16 b0 b1), by simp [formExists, h16], rfl, by simp [opBytes, e0, e1]⟩
      · cases h
    · next h16 =>
      split at h
      · next b0 b1 b2 b3 _ =>
        cases h
        obtain ⟨e0, e1, e2, e3⟩ := cut_joinBytes32 b0 b1 b2 b3
        exact ⟨.near32 cc (joinBytes32 b0 b1 b2 b3), by simpa [formExists] using near32_exists_iff.mpr ⟨h16, h66⟩, rfl,
          by simp [opBytes, e0, e1, e2, e3]⟩
      · cases h

theorem decodeOpcode_eq_ok {c : Config} {p : Prefixes} {b : Byte} {bs rest : List Byte} {i : Instr}
    (h : decodeOpcode c p b bs = .ok i rest) : ReadsOperation c p (b :: bs) i rest := by
  unfold decodeOpcode at h
  split at h
  · next hhigh =>
    split at h
    · cases h
    · next r _ =>
      cases h
      exact ⟨.short (Cond.ofNibble (b.extractLsb' 0 4)) r, rfl, rfl, by simp [opBytes, shortOpcode_ofNibble hhigh]⟩
  · split at h
    · next hb =>
      split at h
      · cases h
      · next r _ =>
        cases h
        exact ⟨.count (addressSize c p) r, by simp [formExists], rfl, by simp [opBytes, hb]⟩
    · split at h
      · next hb =>
        split at h
        · cases h
        · next b' rest' =>
          split at h
          · next hhigh =>
            have hread := decodeNear_eq_ok h
            rwa [nearOpcode_ofNibble hhigh, ← hb] at hread
          · cases h
      · cases h

/-- The loop over leading bytes ends at the opcode with those it read before it, none twice. -/
theorem decodeFrom_eq_ok {c : Config} {p : Prefixes} {bs rest : List Byte} {i : Instr} (hp : p.Nodup)
    (h : decodeFrom c p bs = .ok i rest) :
    ∃ q bs', (p ++ q).Nodup ∧ bs = q.map prefixByte ++ bs' ∧ ReadsOperation c (p ++ q) bs' i rest := by
  induction bs generalizing p with
  | nil => cases h
  | cons b bs ih =>
    rw [decodeFrom] at h
    split at h
    · next x hx =>
      split at h
      · cases h
      · next hmem =>
        have hpx : (p ++ [x]).Nodup := List.nodup_append_comm.mp (List.nodup_cons.mpr ⟨hmem, hp⟩)
        obtain ⟨q, bs', hq, hbs, hread⟩ := ih hpx h
        rw [List.append_assoc, List.singleton_append] at hq hread
        exact ⟨x :: q, bs', hq, by simp [hbs, prefixOfByte_eq_some hx], hread⟩
    · exact ⟨[], b :: bs, by simpa using hp, rfl, by simpa using decodeOpcode_eq_ok h⟩

/-- All the decoder can read (R56): the bytes of an encodable operation, as its canonical instruction. -/
theorem decode_eq_ok_iff {c : Config} {bs rest : List Byte} {i : Instr} :
    decode c bs = .ok i rest ↔
      ∃ p op, encodable c p op = true ∧ i = op.toInstr p ∧ bs = encodeOp p op ++ rest := by
  constructor
  · intro h
    obtain ⟨p, bs', hp, hbs, op, hform, hi, hbs'⟩ := decodeFrom_eq_ok List.nodup_nil h
    rw [List.nil_append] at hp hform hi
    exact ⟨p, op, by simp [encodable, hp, hform], hi, by simp [hbs, hbs', encodeOp]⟩
  · rintro ⟨p, op, he, rfl, rfl⟩
    exact decode_encodeOp he rest

/-- Settles O7: what is read is the canonical instruction of an encodable operation, from that operation's bytes. -/
theorem encodeOfDecode : Obligations.EncodeOfDecode := by
  intro c bs i rest h
  obtain ⟨p, op, he, rfl, rfl⟩ := decode_eq_ok_iff.mp h
  exact ⟨(wf_toInstr op p c).trans he, canonical_toInstr op p, by rw [encode_toInstr]⟩

/-- Settles O8: the bytes read are the encoding, of at most three leading bytes and 2 to 6 bytes of the form. -/
theorem decodedLength : Obligations.DecodedLength := by
  intro c bs i rest h
  obtain ⟨p, op, he, rfl, rfl⟩ := decode_eq_ok_iff.mp h
  have hp := nodup_prefixes_length (nodup_of_encodable he)
  simp only [List.length_append, Laws.EncodedLength.encodeOp_length, prefixesOf_toInstr, opOf_toInstr, true_and, lengthOf]
  have hsize : 2 ≤ op.size ∧ op.size ≤ 6 := by cases op <;> simp [Op.size]
  refine ⟨by omega, by omega, hp, ?_⟩
  cases op <;> rfl

/-! ### What the decoder refuses -/

/-- Settles O9: the loop over leading bytes stops at one it has read before. -/
theorem repeatedLeadingByteRefused : Obligations.RepeatedLeadingByteRefused := by
  intro c p q rest hp hq
  rw [decode_prefixes c p _ hp, decodeFrom, prefixOfByte_prefixByte]
  exact if_pos hq

theorem decodeOpcode_of_other {b : Byte} (h7x : ¬ (0x70 ≤ b.toNat ∧ b.toNat ≤ 0x7F)) (hE3 : b.toNat ≠ 0xE3)
    (h0F : b.toNat ≠ 0x0F) (c : Config) (p : Prefixes) (bs : List Byte) :
    decodeOpcode c p b bs = .refused .opcodeOutOfScope := by
  have hhigh : b.extractLsb' 4 4 ≠ 0x7#4 := fun h => h7x ((highNibble_eq_iff b (by decide)).mp h)
  have hcount : b ≠ 0xE3#8 := fun h => hE3 (h ▸ rfl)
  have hnear : b ≠ 0x0F#8 := fun h => h0F (h ▸ rfl)
  simp only [decodeOpcode, hhigh, hcount, hnear, if_false]

theorem decodeOpcode_near_of_other {b : Byte} (h8x : ¬ (0x80 ≤ b.toNat ∧ b.toNat ≤ 0x8F)) (c : Config) (p : Prefixes)
    (bs : List Byte) : decodeOpcode c p 0x0F#8 (b :: bs) = .refused .opcodeOutOfScope :=
  if_neg fun h => h8x ((highNibble_eq_iff b (by decide)).mp h)

/-- Settles O10: such a byte is no leading byte, so it is read as an opcode, and the family has none of that value. -/
theorem otherBytesRefused : Obligations.OtherBytesRefused := by
  refine ⟨fun c p b rest hp h66 h67 hF0 h7x hE3 h0F => ?_, fun c p b rest hp h8x => ?_⟩
  · rw [decode_opcode hp (prefixOfByte_eq_none h66 h67 hF0), decodeOpcode_of_other h7x hE3 h0F]
  · rw [decode_opcode hp rfl, decodeOpcode_near_of_other h8x]

/-! ### Forms and sizes -/

/-- Settles O11: the near forms by the operand size and 66H, the other forms by the opcode byte alone. -/
theorem nearFormByOperandSize : Obligations.NearFormByOperandSize := by
  refine ⟨fun c p cc b0 b1 rest hp _ hz => ?_, fun c p cc b0 b1 b2 b3 rest hp hz => ?_,
    fun c p cc rest hp hm h66 => ?_, fun c p cc r rest hp hm => ?_⟩
  · exact (decode_nearOpcode c hp cc _).trans (decodeNear_of_bits16 hz cc b0 b1 rest)
  · obtain ⟨h16, h66⟩ := near32_exists_iff.mp (hz.imp_left And.right)
    exact (decode_nearOpcode c hp cc _).trans (decodeNear_of_ne_bits16 h16 h66 cc b0 b1 b2 b3 rest)
  · exact (decode_nearOpcode c hp cc rest).trans (if_pos ⟨hm, h66⟩)
  · exact ⟨operandSize_of_long64 hm p, decode_shortOpcode c hp cc r rest, decode_countOpcode c hp r rest⟩

/-- Without 66H a `cd` form exists in 64-bit mode, elsewhere with 66H or without it. -/
theorem exists_encodable_near32 (c : Config) (cc : Cond) (r : BitVec 32) :
    ∃ p, encodable c p (.near32 cc r) = true := by
  by_cases hm : c.mode = .long64
  · exact ⟨[], encodable_near32_iff.mpr ⟨List.nodup_nil, .inr ⟨hm, List.not_mem_nil⟩⟩⟩
  · rcases operandSize_reached hm (z := .bits32) (by decide) with h | h
    · exact ⟨[], encodable_near32_iff.mpr ⟨List.nodup_nil, .inl h⟩⟩
    · exact ⟨[.opSize], encodable_near32_iff.mpr ⟨List.nodup_singleton _, .inl h⟩⟩

theorem exists_encodable_near16 {c : Config} (hm : c.mode ≠ .long64) (cc : Cond) (r : BitVec 16) :
    ∃ p, encodable c p (.near16 cc r) = true := by
  rcases operandSize_reached hm (z := .bits16) (by decide) with h | h
  · exact ⟨[], encodable_near16_iff.mpr ⟨List.nodup_nil, h⟩⟩
  · exact ⟨[.opSize], encodable_near16_iff.mpr ⟨List.nodup_singleton _, h⟩⟩

theorem exists_encodable_count {c : Config} {z : Size}
    (h : addressSize c [] = z ∨ addressSize c [.addrSize] = z) (r : BitVec 8) :
    ∃ p, encodable c p (.count z r) = true := by
  rcases h with h | h
  · exact ⟨[], encodable_count_iff.mpr ⟨List.nodup_nil, h⟩⟩
  · exact ⟨[.addrSize], encodable_count_iff.mpr ⟨List.nodup_singleton _, h⟩⟩

/-- Settles O14: what is read is encodable, so it has the sizes of its form; and each size of a mode is reached. -/
theorem formsOfEachMode : Obligations.FormsOfEachMode := by
  constructor
  · intro c bs i rest h
    obtain ⟨p, op, he, rfl, -⟩ := decode_eq_ok_iff.mp h
    simp only [opOf_toInstr, prefixesOf_toInstr]
    refine ⟨?_, ?_, ?_, ?_⟩
    · rintro r rfl hm
      exact addressSize_ne_bits16 hm p (encodable_count_iff.mp he).2
    · rintro r rfl hm
      by_contra hp
      have hz := (encodable_count_iff.mp he).2
      simp [addressSize_of_long64_not_mem hm hp] at hz
    · rintro r rfl
      by_contra hm
      exact count_size_ne_bits64 hm he rfl
    · rintro cc r rfl hm
      have hz := (encodable_near16_iff.mp he).2
      simp [operandSize_of_long64 hm] at hz
  · intro c cc r8 r16 r32
    refine ⟨⟨[], encodable_short_iff.mpr List.nodup_nil⟩, exists_encodable_near32 c cc r32,
      exists_encodable_count (addressSize_bits32_reached c) r8, fun hm => ?_, fun hm => ?_,
      fun hm => exists_encodable_near16 hm cc r16⟩
    · exact exists_encodable_count (.inl (addressSize_of_long64_not_mem hm List.not_mem_nil)) r8
    · exact exists_encodable_count (addressSize_reached hm (by decide)) r8

/-! ### Opposite conditions -/

/-- Conditions whose numbers differ in the lowest bit are each other's negation (R63). -/
theorem condHolds_opposite (cc : Cond) (s : State) :
    condHolds (Cond.ofNibble (Cond.nibble cc ^^^ 1#4)) s = !condHolds cc s := by
  cases cc <;> simp [Cond.nibble, Cond.ofNibble, condHolds, bne]

theorem exec_of_not_taken {i : Instr} {s : State} (hwf : i.wf s.config = true) (hl : Prefix.lock ∉ prefixesOf i)
    (ht : takenAt i s = false) : exec i s = .next { s with ip := BitVec.ofNat 64 (nextAt i s) } := by
  rw [exec_eq_execOp, execOp_notTaken hwf hl ht, nextOf_eq]
  rfl

/-- Of two encodable operations one of which is taken exactly when the other is not, one falls through. -/
theorem taken_or_next_of_opposite {op op' : Op} {p : Prefixes} {s : State} (hl : Prefix.lock ∉ p)
    (he : encodable s.config p op = true) (he' : encodable s.config p op' = true) (ht : taken op' s = !taken op s) :
    (takenAt (op.toInstr p) s = true ∧
      exec (op'.toInstr p) s = .next { s with ip := BitVec.ofNat 64 (nextAt (op'.toInstr p) s) }) ∨
    (takenAt (op'.toInstr p) s = true ∧
      exec (op.toInstr p) s = .next { s with ip := BitVec.ofNat 64 (nextAt (op.toInstr p) s) }) := by
  cases h : taken op s with
  | true => exact .inl ⟨by simpa [takenAt] using h, exec_of_not_taken (by simpa) (by simpa) (by simp [takenAt, ht, h])⟩
  | false => exact .inr ⟨by simp [takenAt, ht, h], exec_of_not_taken (by simpa) (by simpa) (by simpa [takenAt] using h)⟩

/-- Settles O39: the two conditions are each other's negation, and the form exists for both or for neither. -/
theorem oppositeConditionsPartition : Obligations.OppositeConditionsPartition := by
  rintro cc p r8 r16 r32 s hl co i j (⟨rfl, rfl⟩ | ⟨rfl, rfl⟩ | ⟨rfl, rfl⟩) hwf
  · have he := (wf_toInstr (.short cc r8) p s.config).symm.trans hwf
    exact taken_or_next_of_opposite (op := .short cc r8) (op' := .short co r8) hl he he (condHolds_opposite cc s)
  · have he := (wf_toInstr (.near16 cc r16) p s.config).symm.trans hwf
    exact taken_or_next_of_opposite (op := .near16 cc r16) (op' := .near16 co r16) hl he he (condHolds_opposite cc s)
  · have he := (wf_toInstr (.near32 cc r32) p s.config).symm.trans hwf
    exact taken_or_next_of_opposite (op := .near32 cc r32) (op' := .near32 co r32) hl he he (condHolds_opposite cc s)

/-! ### A further 67H -/

theorem operandSize_addrSize_cons (c : Config) (p : Prefixes) : operandSize c (.addrSize :: p) = operandSize c p := by
  simp [operandSize]

/-- A form other than the count-register ones exists with 67H as without. -/
theorem encodable_addrSize_cons {c : Config} {p : Prefixes} {op : Op} (hp : Prefix.addrSize ∉ p)
    (hop : ∀ z r, op ≠ .count z r) : encodable c (.addrSize :: p) op = encodable c p op := by
  cases op with
  | count z r => exact absurd rfl (hop z r)
  | short cc r => simp [encodable, formExists, hp]
  | near16 cc r => simp [encodable, formExists, hp, operandSize_addrSize_cons]
  | near32 cc r => simp [encodable, formExists, hp, operandSize_addrSize_cons]

theorem targetFrom_addrSize_cons (c : Config) (p : Prefixes) (op : Op) (next : Offset) :
    targetFrom c (.addrSize :: p) op next = targetFrom c p op next := by
  simp only [targetFrom, operandSize_addrSize_cons]

/-- One byte back and one byte further on is the same offset. -/
theorem addOffset_back (c : Config) (a : Offset) (n : Nat) :
    addOffset c (addOffset c a (BitVec.ofInt 64 (-1))) (BitVec.ofNat 64 (n + 1)) = addOffset c a (BitVec.ofNat 64 n) := by
  have hback : (BitVec.ofInt 64 (-1)).toNat = 2 ^ 64 - 1 := by decide
  have hbits : ipBits c = 64 ∨ ipBits c = 32 := by unfold ipBits; split <;> simp
  apply BitVec.eq_of_toNat_eq
  rw [addOffset_toNat, addOffset_toNat, addOffset_toNat, hback, BitVec.toNat_ofNat, BitVec.toNat_ofNat]
  rcases hbits with h | h <;> rw [h] <;> omega

/-- A jump one byte longer, one byte further back, has the same following instruction. -/
theorem nextOf_addrSize_cons_back (p : Prefixes) (op : Op) (s : State) :
    nextOf (.addrSize :: p) op (s.withIp (addOffset s.config s.ip (BitVec.ofInt 64 (-1)))) = nextOf p op s := by
  have hlen : lengthOf (.addrSize :: p) op = lengthOf p op + 1 := by simp only [lengthOf, List.length_cons]; omega
  rw [nextOf, nextOf, hlen]
  exact addOffset_back s.config s.ip (lengthOf p op)

/-- The shared step of a flag-conditional jump and of the one with a further 67H, one byte further back: the same next
state, the same refusal, or the same fault, each at its own offset. -/
theorem execOp_addrSize_cons_cases {op : Op} {p : Prefixes} {s : State} {a : Offset} (hp : Prefix.addrSize ∉ p)
    (hop : ∀ z r, op ≠ .count z r) (ha : a = addOffset s.config s.ip (BitVec.ofInt 64 (-1))) :
    (∃ r, execOp op p s = .refused r ∧ execOp op (.addrSize :: p) (s.withIp a) = .refused r) ∨
    (∃ t, execOp op p s = .next t ∧ execOp op (.addrSize :: p) (s.withIp a) = .next t) ∨
    (execOp op p s = .fault (.ud s.ip) ∧ execOp op (.addrSize :: p) (s.withIp a) = .fault (.ud a)) ∨
    (execOp op p s = .fault (targetFault s.config s.ip) ∧
      execOp op (.addrSize :: p) (s.withIp a) = .fault (targetFault s.config a)) := by
  have henc : encodable (s.withIp a).config (.addrSize :: p) op = encodable s.config p op :=
    encodable_addrSize_cons hp hop
  have hlock : Prefix.lock ∈ Prefix.addrSize :: p ↔ Prefix.lock ∈ p := by simp
  have hnext : nextOf (.addrSize :: p) op (s.withIp a) = nextOf p op s := ha ▸ nextOf_addrSize_cons_back p op s
  have htaken := taken_withIp op s a
  rcases execOp_cases op p s with ⟨he, e⟩ | ⟨he, hl, e⟩ | ⟨he, hl, ht, e⟩ | ⟨he, hl, ht, hok, e⟩ | ⟨he, hl, ht, hok, e⟩
  · exact .inl ⟨_, e, execOp_unencodable (henc.trans he)⟩
  · exact .inr (.inr (.inl ⟨e, execOp_lock (henc.trans he) (hlock.mpr hl)⟩))
  · refine .inr (.inl ⟨_, e, ?_⟩)
    rw [execOp_notTaken (henc.trans he) (hlock.not.mpr hl) (htaken.trans ht), hnext, withIp_withIp]
  · refine .inr (.inl ⟨_, e, ?_⟩)
    rw [execOp_taken (henc.trans he) (hlock.not.mpr hl) (htaken.trans ht), jumpTaken, hnext]
    simp [targetFrom_addrSize_cons, hok]
  · refine .inr (.inr (.inr ⟨e, ?_⟩))
    rw [execOp_taken (henc.trans he) (hlock.not.mpr hl) (htaken.trans ht), jumpTaken, hnext]
    simp [targetFrom_addrSize_cons, hok, raise_gp]

theorem targetFault_ne_ud (c : Config) (a b : Offset) : targetFault c a ≠ .ud b := by
  unfold targetFault
  split <;> simp

/-- `execOp_addrSize_cons_cases` for the canonical instructions, outcome by outcome. -/
theorem exec_addrSize_cons_iff {op : Op} {p : Prefixes} {s : State} {a : Offset} (hp : Prefix.addrSize ∉ p)
    (hop : ∀ z r, op ≠ .count z r) (ha : a = addOffset s.config s.ip (BitVec.ofInt 64 (-1))) {i j : Instr}
    (hi : i = op.toInstr p) (hj : j = op.toInstr (.addrSize :: p)) :
    (∀ t, exec i s = .next t ↔ exec j { s with ip := a } = .next t) ∧
    (∀ r, exec i s = .refused r ↔ exec j { s with ip := a } = .refused r) ∧
    (exec i s = .fault (.ud s.ip) ↔ exec j { s with ip := a } = .fault (.ud a)) ∧
    (exec i s = .fault (targetFault s.config s.ip) ↔ exec j { s with ip := a } = .fault (targetFault s.config a)) := by
  subst hi hj
  rw [← withIp_eq, exec_eq_execOp, exec_eq_execOp]
  simp only [opOf_toInstr, prefixesOf_toInstr]
  rcases execOp_addrSize_cons_cases hp hop ha with ⟨r, e, e'⟩ | ⟨t, e, e'⟩ | ⟨e, e'⟩ | ⟨e, e'⟩ <;> rw [e, e'] <;>
    simp [targetFault_ne_ud, (targetFault_ne_ud _ _ _).symm]

/-- Settles O40: 67H enters a flag-conditional jump through its length alone, and the byte further back makes up. -/
theorem addressOverrideOnlyLengthens : Obligations.AddressOverrideOnlyLengthens := by
  rintro cc p r8 r16 r32 s a hp ha i j (⟨hi, hj⟩ | ⟨hi, hj⟩ | ⟨hi, hj⟩)
  · exact exec_addrSize_cons_iff (op := .short cc r8) hp nofun ha hi hj
  · exact exec_addrSize_cons_iff (op := .near16 cc r16) hp nofun ha hi hj
  · exact exec_addrSize_cons_iff (op := .near32 cc r32) hp nofun ha hi hj

/-! ### The opcode bytes, one by one -/

/-- Settles O2: the short opcode of each condition, behind no leading byte. -/
theorem shortOpcodesDecode : Obligations.ShortOpcodesDecode := by
  intro c r rest
  have key (cc : Cond) := decode_shortOpcode c List.nodup_nil cc r rest
  refine ⟨key .o, key .no, key .b, key .ae, key .e, key .ne, key .be, key .a, key .s, key .ns, key .p, key .np, key .l,
    key .ge, key .le, key .g, fun cc => ?_⟩
  obtain ⟨hval, hhigh, hlow⟩ := shortOpcode_parts cc
  exact ⟨hval, hhigh, hlow, ofNibble_nibble cc⟩

/-- Settles O4: the near opcode of each condition under operand size 16. -/
theorem near16OpcodesDecode : Obligations.Near16OpcodesDecode := by
  intro c b0 b1 rest hz
  have key (cc : Cond) := (decode_nearOpcode c List.nodup_nil cc _).trans (decodeNear_of_bits16 hz cc b0 b1 rest)
  exact ⟨key .o, key .no, key .b, key .ae, key .e, key .ne, key .be, key .a, key .s, key .ns, key .p, key .np, key .l,
    key .ge, key .le, key .g, nearOpcode_parts⟩

/-- Settles O5: the near opcode of each condition under another operand size; with no leading byte there is no 66H. -/
theorem near32OpcodesDecode : Obligations.Near32OpcodesDecode := by
  intro c b0 b1 b2 b3 rest hz
  have h66 : ¬ (c.mode = .long64 ∧ Prefix.opSize ∈ ([] : Prefixes)) := fun h => List.not_mem_nil h.2
  have key (cc : Cond) :=
    (decode_nearOpcode c List.nodup_nil cc _).trans (decodeNear_of_ne_bits16 hz h66 cc b0 b1 b2 b3 rest)
  exact ⟨key .o, key .no, key .b, key .ae, key .e, key .ne, key .be, key .a, key .s, key .ns, key .p, key .np, key .l,
    key .ge, key .le, key .g⟩

/-! ### The size attributes, row by row -/

/-- Settles O12: the default size without 66H, its toggle with it. -/
theorem operandSizeAttribute : Obligations.OperandSizeAttribute := fun _ p =>
  ⟨fun hm => operandSize_of_long64 hm p,
    fun hm hp hd => (operandSize_of_not_mem hm hp).trans (congrArg sameSize hd),
    fun hm hp hd => (operandSize_of_not_mem hm hp).trans (congrArg sameSize hd),
    fun hm hp hd => (operandSize_of_mem hm hp).trans (congrArg toggledSize hd),
    fun hm hp hd => (operandSize_of_mem hm hp).trans (congrArg toggledSize hd)⟩

/-- Settles O13: the default size without 67H, its toggle with it; in 64-bit mode 64 and 32. -/
theorem addressSizeAttribute : Obligations.AddressSizeAttribute := fun _ =>
  ⟨fun p => ⟨addressSize_of_long64_not_mem, addressSize_of_long64_mem,
    fun hm hp hd => (addressSize_of_not_mem hm hp).trans (congrArg sameSize hd),
    fun hm hp hd => (addressSize_of_not_mem hm hp).trans (congrArg sameSize hd),
    fun hm hp hd => (addressSize_of_mem hm hp).trans (congrArg toggledSize hd),
    fun hm hp hd => (addressSize_of_mem hm hp).trans (congrArg toggledSize hd),
    fun hm => addressSize_ne_bits16 hm p, fun hm => addressSize_ne_bits64 hm p⟩, addressSize_bits32_reached _⟩

/-! ### Forms without bytes, and mnemonics with the same bytes -/

/-- Settles O36: the shared step refuses what is not encodable, and the sizes of a mode leave these forms out. -/
theorem unspelledFormsRefused : Obligations.UnspelledFormsRefused := by
  refine ⟨fun i s hwf => ?_, fun c p r hm => ?_, fun c p r hm => ?_, fun c p cc r hm => ?_⟩
  · rw [exec_eq_execOp, execOp_unencodable hwf]
  · exact Bool.eq_false_iff.mpr fun he => addressSize_ne_bits16 hm p (encodable_count_iff.mp he).2
  · exact Bool.eq_false_iff.mpr fun he => count_size_ne_bits64 hm he rfl
  · refine Bool.eq_false_iff.mpr fun hwf => ?_
    have he := (wf_toInstr (.near16 cc r) p c).symm.trans hwf
    have hz := (encodable_near16_iff.mp he).2
    simp [operandSize_of_long64 hm] at hz

/-- Settles O38: execution, encoding and well-formedness read the operation and the leading bytes, which `canonical`
keeps. -/
theorem aliasesAreOneInstruction : Obligations.AliasesAreOneInstruction := by
  refine ⟨fun i s => ?_, fun i => ?_, fun i c => ?_, fun _ _ => rfl, fun _ _ => rfl, fun _ _ => rfl, fun _ _ => rfl⟩
  · rw [exec_eq_execOp, exec_eq_execOp, opOf_canonical, prefixesOf_canonical]
  · rw [encode, encode, opOf_canonical, prefixesOf_canonical]
  · rw [Instr.wf, Instr.wf, opOf_canonical, prefixesOf_canonical]

end Sys2Proof.Machine
end


section
/-! PROOFS. The statements of 40_jcc_common.md: the conditions, what a jump does when it is not taken and when it is,
that nothing but `ip` is written, and the step at the bytes of an instruction. -/

namespace Sys2Proof.Machine

/-! ### The conditions -/

/-- On an even number, adding 1 turns over the lowest bit alone. -/
theorem add_one_eq_xor_one_of_even : ∀ n : BitVec 4, n.toNat % 2 = 0 → n + 1 = n ^^^ 1#4 := by decide

/-- Settles O15: each formula read off its row of R63; an odd number is the even one before it with the lowest bit
turned over. -/
theorem flagConditions : Obligations.FlagConditions := by
  have negated (b : Bool) : (!b) = true ↔ b = false := by rw [Bool.not_eq_true']
  refine ⟨fun s => ?_, fun cc s heven => ?_, fun _ _ _ _ _ => ⟨rfl, rfl, rfl⟩⟩
  · have above := Bool.and_eq_true_iff.trans (and_congr (negated s.CF) (negated s.ZF))
    have less := bne_iff_ne (a := s.SF) (b := s.OF)
    have notLess := beq_iff_eq (a := s.SF) (b := s.OF)
    have lessOrEqual := Bool.or_eq_true_iff.trans (or_congr (Iff.refl (s.ZF = true)) less)
    have greater := Bool.and_eq_true_iff.trans (and_congr (negated s.ZF) notLess)
    exact ⟨Iff.rfl, negated _, Iff.rfl, negated _, Iff.rfl, negated _, Bool.or_eq_true_iff, above, Iff.rfl, negated _,
      Iff.rfl, negated _, less, notLess, lessOrEqual, greater⟩
  · rw [add_one_eq_xor_one_of_even _ heven, condHolds_opposite]

theorem countIsZero_bits16_iff (s : State) : countIsZero .bits16 s = true ↔ s.RCX.toNat % 2 ^ 16 = 0 := by
  simp [countIsZero, cx, ← BitVec.toNat_inj]

theorem countIsZero_bits32_iff (s : State) : countIsZero .bits32 s = true ↔ s.RCX.toNat % 2 ^ 32 = 0 := by
  simp [countIsZero, ecx, ← BitVec.toNat_inj]

theorem countIsZero_bits64_iff (s : State) : countIsZero .bits64 s = true ↔ s.RCX.toNat = 0 := by
  simp [countIsZero, ← BitVec.toNat_inj]

/-- Settles O16: CX, ECX and RCX are the count register modulo `2^16`, `2^32` and whole. -/
theorem countConditions : Obligations.CountConditions := by
  refine ⟨fun s _ => ⟨countIsZero_bits16_iff s, countIsZero_bits32_iff s, countIsZero_bits64_iff s⟩, fun s _ hrcx => ?_⟩
  have hval : s.RCX.toNat = 2 ^ 32 := by rw [hrcx]; rfl
  refine ⟨(countIsZero_bits32_iff s).mpr ?_, (countIsZero_bits16_iff s).mpr ?_, Bool.eq_false_iff.mpr fun h => ?_⟩
  · rw [hval, Nat.mod_self]
  · rw [hval]; rfl
  · have hzero := (countIsZero_bits64_iff s).mp h
    omega

/-! ### The step at the bytes of an instruction -/

/-- Settles O42: the decoder's answer on bytes that are fetched is what the step fetches. -/
theorem stepRunsTheDecodedInstruction : Obligations.StepRunsTheDecodedInstruction := by
  intro s bs i rest hx hb hd
  have hne : decode s.config bs ≠ .short := by simp [hd]
  exact step_of_fetchInstr_next hx ((decode_window hb hne).1 i rest hd)

/-- At the bytes of any well-formed instruction, aliases included, the step is its execution. -/
theorem step_of_fetchesBytes_encode {s : State} {i : Instr} (hx : s.ip.toNat ∉ s.exits) (hwf : i.wf s.config = true)
    (hb : fetchesBytes s s.ip (encode i)) : step s = exec i s := by
  obtain ⟨exec_canonical, -⟩ := aliasesAreOneInstruction
  have hd : decode s.config (encode i) = .ok i.canonical [] := by
    have h := decode_encodeOp hwf []
    rwa [List.append_nil] at h
  rw [exec_canonical i s]
  exact stepRunsTheDecodedInstruction s _ _ _ hx hb hd

/-! ### A jump that is not taken -/

/-- Settles O26: the shared step's not-taken branch writes the following offset, whichever way `i` was reached. -/
theorem notTakenFallsThrough : Obligations.NotTakenFallsThrough := by
  rintro i s hwf hl ht next rfl
  have he := exec_of_not_taken hwf hl ht
  exact ⟨he, fun bs rest hx hb hd => (stepRunsTheDecodedInstruction s bs i rest hx hb hd).trans he⟩

/-! ### A taken jump -/

/-- A taken jump whose target passes writes it to `ip` (R67, R68). -/
theorem exec_of_target_allowed {i : Instr} {s : State} (hwf : i.wf s.config = true) (hl : Prefix.lock ∉ prefixesOf i)
    (ht : takenAt i s = true) (ha : targetAllowed s.config (BitVec.ofNat 64 (targetAt i s)) = true) :
    exec i s = .next { s with ip := BitVec.ofNat 64 (targetAt i s) } := by
  rw [targetAt, relInt_eq] at ha ⊢
  rw [exec_eq_execOp, execOp_taken hwf hl ht, jumpTaken, targetFrom_nextOf, ← withIp_eq]
  exact if_pos ha

theorem exec_of_inBounds {i : Instr} {s : State} (hwf : i.wf s.config = true) (hl : Prefix.lock ∉ prefixesOf i)
    (ht : takenAt i s = true) (hb : inBounds s.config (targetAt i s)) :
    exec i s = .next { s with ip := BitVec.ofNat 64 (targetAt i s) } :=
  exec_of_target_allowed hwf hl ht ((targetAllowed_iff _ _ (targetOffset_lt ..)).mpr hb)

/-- Settles O43: the step at the encoding is the execution, whose two completing branches are these. -/
theorem stepAtEncodingCompletesNotTaken : Obligations.StepAtEncodingCompletesNotTaken := by
  intro s i hx hwf hl hb
  rw [step_of_fetchesBytes_encode hx hwf hb]
  exact ⟨exec_of_not_taken hwf hl, exec_of_inBounds hwf hl⟩

/-! ### A taken jump outside 64-bit mode -/

/-- The sum of R67 before the cut: the offset of the following instruction and the signed offset, modulo `2^32`. -/
def uncutTarget32 (i : Instr) (s : State) : Nat :=
  ((((s.ip.toNat % 2 ^ 32 + lengthOf (prefixesOf i) (opOf i)) % 2 ^ 32 : Nat) + relInt i) % 2 ^ 32).toNat

theorem uncutTarget32_cast (i : Instr) (s : State) :
    (uncutTarget32 i s : Int) =
      (((s.ip.toNat % 2 ^ 32 + lengthOf (prefixesOf i) (opOf i)) % 2 ^ 32 : Nat) + relInt i) % 2 ^ 32 :=
  Int.toNat_of_nonneg (Int.emod_nonneg _ (by decide))

/-- The target is the sum on 32 bits, of which operand size 16 keeps the low half (R67). -/
theorem targetAt_eq_uncutTarget32 {i : Instr} {s : State} (hm : s.config.mode ≠ .long64) :
    targetAt i s =
      if operandSize s.config (prefixesOf i) = .bits16 then uncutTarget32 i s % 2 ^ 16 else uncutTarget32 i s := by
  have hsum :
      (((s.ip.toNat + lengthOf (prefixesOf i) (opOf i) : Nat) + relInt i) % 2 ^ 32).toNat = uncutTarget32 i s := by
    unfold uncutTarget32
    omega
  rw [targetAt, targetOffset, ipBits_other hm, hsum]

theorem uncutTarget32_of_relInt_zero {i : Instr} {s : State} (hm : s.config.mode ≠ .long64) (hr : relInt i = 0) :
    uncutTarget32 i s = nextAt i s := by
  rw [nextAt, nextOffset, ipBits_other hm, uncutTarget32, hr]
  omega

theorem uncutTarget32_of_relInt_neg_length {i : Instr} {s : State}
    (hr : relInt i = -(lengthOf (prefixesOf i) (opOf i) : Int)) : uncutTarget32 i s = s.ip.toNat % 2 ^ 32 := by
  rw [uncutTarget32, hr]
  omega

/-- Settles O27: the target of the taken branch is the sum on 32 bits, cut under operand size 16. -/
theorem takenOutside64BitMode : Obligations.TakenOutside64BitMode := by
  intro i s hm hwf hl ht
  have htarget := targetAt_eq_uncutTarget32 (i := i) hm
  have hlt : targetAt i s < 2 ^ 32 := ipBits_other hm ▸ targetOffset_lt ..
  refine ⟨uncutTarget32 i s, targetAt i s, uncutTarget32_cast i s, htarget, hlt, exec_of_inBounds hwf hl ht,
    exec_of_outOfBounds hwf hl ht, fun hr h16 => ?_, fun hr hfits => ?_⟩
  · rw [htarget, if_neg h16, uncutTarget32_of_relInt_zero hm hr]
  · rw [htarget, uncutTarget32_of_relInt_neg_length hr]
    split
    case isTrue h16 => exact Nat.mod_eq_of_lt (hfits.resolve_left (not_not_intro h16))
    case isFalse => rfl

/-! ### A taken jump in 64-bit mode -/

/-- The target in 64-bit mode is the sum modulo `2^64`, whatever the leading bytes (R68). -/
theorem ofNat_targetAt_of_long64 {i : Instr} {s : State} (hm : s.config.mode = .long64) :
    BitVec.ofNat 64 (targetAt i s) =
      BitVec.ofInt 64 ((s.ip.toNat + lengthOf (prefixesOf i) (opOf i) : Nat) + relInt i) := by
  have h16 : operandSize s.config (prefixesOf i) ≠ .bits16 := by simp [operandSize_of_long64 hm]
  apply BitVec.eq_of_toNat_eq
  rw [targetAt, targetOffset, if_neg h16, ipBits_long64 hm, BitVec.toNat_ofNat, BitVec.toNat_ofInt]
  omega

/-- In 64-bit mode the taken branch checks canonical form and reads nothing else of the configuration (R68, R36). -/
theorem exec_of_taken_long64 {i : Instr} {s : State} (hm : s.config.mode = .long64) (hwf : i.wf s.config = true)
    (hl : Prefix.lock ∉ prefixesOf i) (ht : takenAt i s = true) {t : Offset}
    (htarget : t = BitVec.ofInt 64 ((s.ip.toNat + lengthOf (prefixesOf i) (opOf i) : Nat) + relInt i)) :
    exec i s = if canonical s.config.vaBits t then .next { s with ip := t } else .fault (.gp0 s.ip) := by
  have hallowed := targetAllowed_of_long64 hm t
  rw [← ofNat_targetAt_of_long64 hm] at htarget
  subst htarget
  rw [← hallowed]
  split
  case isTrue ha => exact exec_of_target_allowed hwf hl ht ha
  case isFalse hd =>
    rw [exec_of_target_denied hwf hl ht (Bool.eq_false_iff.mpr hd), targetFault_of_long64 hm]

/-- No condition reads the configuration. -/
theorem taken_setConfig (op : Op) (s : State) (c : Config) : taken op { s with config := c } = taken op s := by
  cases op with
  | short cc r => cases cc <;> rfl
  | count z r => cases z <;> rfl
  | near16 cc r => cases cc <;> rfl
  | near32 cc r => cases cc <;> rfl

/-- No form exists or is missing because of the limit. -/
theorem wf_setCsLimit (i : Instr) (c : Config) (limit : BitVec 32) :
    i.wf { c with csLimit := limit } = i.wf c := by
  unfold Instr.wf
  cases opOf i <;> rfl

/-- Settles O28: the taken branch in 64-bit mode, and the same branch under another limit. -/
theorem takenIn64BitMode : Obligations.TakenIn64BitMode := by
  intro i s hm hwf hl ht
  refine ⟨operandSize_of_long64 hm _, fun t htarget => ?_⟩
  have he := exec_of_taken_long64 hm hwf hl ht htarget
  refine ⟨fun hc => he.trans (if_pos hc), fun hc => he.trans (if_neg (Bool.eq_false_iff.mp hc)), fun limit => ?_⟩
  have he' := exec_of_taken_long64 (s := { s with config := { s.config with csLimit := limit } }) hm
    ((wf_setCsLimit i s.config limit).trans hwf) hl ((taken_setConfig (opOf i) s _).trans ht) htarget
  rw [he, he']
  split <;> rfl

/-! ### What is written -/

/-- Settles O37: the shared step, and with it the machine's, answers its state with another `ip`. -/
theorem onlyIpIsWritten : Obligations.OnlyIpIsWritten := by
  refine ⟨fun i s t h => ?_, fun s t h => step_next_eq_withIp h⟩
  rw [exec_eq_execOp] at h
  rw [execOp_next h]
  exact ⟨rfl, rfl, rfl, rfl, rfl, rfl, rfl, rfl, fun _ => rfl⟩

end Sys2Proof.Machine
end

section
/-! PROOFS. The statement of 42_jcxz.md: the jumps on the count register, from the rule that an instruction is the jump
on whatever its test says. -/

namespace Sys2Proof.Machine

/-- With a LOCK byte the condition is not looked at (R130, R71). -/
theorem exec_of_lock {i : Instr} {s : State} (hwf : i.wf s.config = true) (hl : Prefix.lock ∈ prefixesOf i) :
    exec i s = .fault (.ud s.ip) := by
  rw [exec_eq_execOp, execOp_lock hwf hl]

theorem exec_of_not_wf {i : Instr} {s : State} (hwf : i.wf s.config = false) : exec i s = .refused .notEncodable := by
  rw [exec_eq_execOp, execOp_unencodable hwf]

/-- An instruction is the conditional jump on whatever its test says: the shared step does the rest (R65). -/
theorem jumpsWhen_of_takenAt_iff {i : Instr} {cond : State → Prop} (h : ∀ s, takenAt i s = true ↔ cond s) :
    JumpsWhen i cond := fun s => by
  refine ⟨fun hwf hl => ⟨fun hc => ?_, fun hc hb => ?_, fun hc hb => ?_⟩, exec_of_lock, exec_of_not_wf⟩
  · exact exec_of_not_taken hwf hl (Bool.eq_false_iff.mpr (mt (h s).mp hc))
  · exact exec_of_inBounds hwf hl ((h s).mpr hc) hb
  · exact exec_of_outOfBounds hwf hl ((h s).mpr hc) hb

/-- Settles O25: each row tests the count register at its own width (R90 to R92). -/
theorem jumpsOnCountRegister : Obligations.JumpsOnCountRegister := fun _ _ =>
  ⟨jumpsWhen_of_takenAt_iff countIsZero_bits16_iff, jumpsWhen_of_takenAt_iff countIsZero_bits32_iff,
    jumpsWhen_of_takenAt_iff countIsZero_bits64_iff⟩

end Sys2Proof.Machine
end

section
/-! PROOFS. The statement of 43_jcc_near.md: the operand size of a decoded near form, and the modulus of its target. -/

namespace Sys2Proof.Machine

/-! ### The operand size of a near form -/

theorem operandSize_of_wf_near16 {i : Instr} {c : Config} {cc : Cond} {r : BitVec 16} (hwf : i.wf c = true)
    (hop : opOf i = .near16 cc r) : operandSize c (prefixesOf i) = .bits16 := by
  rw [Instr.wf, hop] at hwf
  obtain ⟨-, h16⟩ := encodable_near16_iff.mp hwf
  exact h16

theorem operandSize_of_wf_near32 {i : Instr} {c : Config} {cc : Cond} {r : BitVec 32} (hm : c.mode ≠ .long64)
    (hwf : i.wf c = true) (hop : opOf i = .near32 cc r) : operandSize c (prefixesOf i) = .bits32 := by
  rw [Instr.wf, hop] at hwf
  obtain ⟨-, h32 | ⟨h64, -⟩⟩ := encodable_near32_iff.mp hwf
  · exact h32
  · exact absurd h64 hm

/-! ### The target as one sum -/

/-- The cut to 16 bits swallows the reduction modulo `2^W` before it, as `2^16` divides `2^W` (R67). -/
theorem targetAt_of_bits16 {i : Instr} {s : State} (h16 : operandSize s.config (prefixesOf i) = .bits16) :
    (targetAt i s : Int) = ((s.ip.toNat + lengthOf (prefixesOf i) (opOf i) : Nat) + relInt i) % 2 ^ 16 := by
  have hm : s.config.mode ≠ .long64 := fun hm => by simp [operandSize_of_long64 hm] at h16
  rw [targetAt, targetOffset, if_pos h16, ipBits_other hm]
  omega

/-- Outside 64-bit mode a target that is not cut is the sum modulo `2^32` (R67). -/
theorem targetAt_of_ne_bits16 {i : Instr} {s : State} (hm : s.config.mode ≠ .long64)
    (h16 : operandSize s.config (prefixesOf i) ≠ .bits16) :
    (targetAt i s : Int) = ((s.ip.toNat + lengthOf (prefixesOf i) (opOf i) : Nat) + relInt i) % 2 ^ 32 := by
  rw [targetAt, targetOffset, if_neg h16, ipBits_other hm]
  omega

/-- Modulo `2^32` it makes no difference whether a 32-bit offset is read signed or unsigned. -/
theorem add_toInt_emod_eq_add_toNat_emod (a : Nat) (r : BitVec 32) :
    ((a : Int) + r.toInt) % 2 ^ 32 = ((a + r.toNat : Nat) : Int) % 2 ^ 32 := by
  rw [BitVec.toInt_eq_toNat_cond]
  split <;> omega

/-- Settles O29: what is decoded exists under its operand size, and that size is the modulus of the target. -/
theorem rel16TargetsStayBelow64K : Obligations.Rel16TargetsStayBelow64K := by
  intro s bs i rest hd
  obtain ⟨hwf, -, -⟩ := encodeOfDecode s.config bs i rest hd
  refine ⟨fun cc r hop => ?_, fun cc r hop hm => ?_⟩
  · have hrel : relInt i = r.toInt := by simp only [relInt, hop]
    have htarget := targetAt_of_bits16 (s := s) (operandSize_of_wf_near16 hwf hop)
    rw [hrel] at htarget
    exact ⟨by omega, htarget⟩
  · have hrel : relInt i = r.toInt := by simp only [relInt, hop]
    have hsize : operandSize s.config (prefixesOf i) ≠ .bits16 := by simp [operandSize_of_wf_near32 hm hwf hop]
    rw [targetAt_of_ne_bits16 hm hsize, hrel, add_toInt_emod_eq_add_toNat_emod]

end Sys2Proof.Machine
end

section
/-! PROOFS. The statements of 60_exceptions.md: when an instruction raises a general-protection fault and when `#UD`,
what ends a step before an instruction is read, all a step can fault or be refused with, and the modes that behave
alike. -/

namespace Sys2Proof.Machine

/-! ### The general-protection fault of a jump -/

/-- Without a LOCK byte an instruction faults in one way: taken, to a target out of bounds (R69, R127 to R129). -/
theorem exec_fault_iff {i : Instr} {s : State} (hwf : i.wf s.config = true) (hl : Prefix.lock ∉ prefixesOf i)
    (f : Fault) :
    exec i s = .fault f ↔
      (takenAt i s = true ∧ ¬ inBounds s.config (targetAt i s)) ∧ f = targetFault s.config s.ip := by
  cases ht : takenAt i s with
  | false => simp [exec_of_not_taken hwf hl ht]
  | true =>
    by_cases hb : inBounds s.config (targetAt i s)
    · simp [exec_of_inBounds hwf hl ht hb, hb]
    · simp [exec_of_outOfBounds hwf hl ht hb, hb, eq_comm]

/-- `exec_fault_iff` with the bounds and the fault of the mode filled in. -/
theorem exec_fault_of_mode {i : Instr} {s : State} (hwf : i.wf s.config = true) (hl : Prefix.lock ∉ prefixesOf i)
    {g : Fault} (hg : targetFault s.config s.ip = g) {out : Prop} (hout : ¬ inBounds s.config (targetAt i s) ↔ out) :
    (exec i s = .fault g ↔ takenAt i s = true ∧ out) ∧ ∀ f, exec i s = .fault f → f = g := by
  simp only [exec_fault_iff hwf hl, hg, hout]
  exact ⟨and_iff_left trivial, fun f ⟨_, hf⟩ => hf⟩

/-- Settles O32: the bound of these modes is the limit alone, and their fault has error code 0. -/
theorem generalProtectionInProtectedAndCompat : Obligations.GeneralProtectionInProtectedAndCompat := by
  intro i s hm hwf hl
  have hout := (not_congr (inBounds_iff_of_protected_or_compat hm (targetAt i s))).trans Nat.not_le
  obtain ⟨hiff, honly⟩ := exec_fault_of_mode hwf hl (targetFault_of_protected_or_compat hm s.ip) hout
  refine ⟨hiff, fun f hf => ?_⟩
  obtain rfl := honly f hf
  exact ⟨rfl, rfl, rfl, rfl⟩

/-- Under operand size 16 a target is cut to 16 bits (R67). -/
theorem targetAt_le_of_bits16 {i : Instr} {s : State} (h16 : operandSize s.config (prefixesOf i) = .bits16) :
    targetAt i s ≤ 0xFFFF := by
  have htarget := targetAt_of_bits16 h16
  omega

/-- Settles O33: the bounds of these modes are the limit and FFFFH, and only an uncut target is above FFFFH. -/
theorem generalProtectionInRealAndV8086 : Obligations.GeneralProtectionInRealAndV8086 := by
  intro i s hm hwf hl
  have hout : ¬ inBounds s.config (targetAt i s) ↔
      s.config.csLimit.toNat < targetAt i s ∨ 0xFFFF < targetAt i s := by
    rw [inBounds_iff_of_real_or_v8086 hm, not_and_or, Nat.not_le, Nat.not_le]
  obtain ⟨hiff, honly⟩ := exec_fault_of_mode hwf hl (targetFault_of_real_or_v8086 hm s.ip) hout
  refine ⟨hiff, fun f hf => ?_, fun habove => ?_⟩
  · obtain rfl := honly f hf
    exact ⟨rfl, rfl, rfl, rfl⟩
  · have h16 : operandSize s.config (prefixesOf i) ≠ .bits16 := fun h =>
      Nat.not_le_of_lt habove (targetAt_le_of_bits16 h)
    refine ⟨?_, fun cc r hop => h16 (operandSize_of_wf_near16 hwf hop)⟩
    cases hz : operandSize s.config (prefixesOf i) with
    | bits16 => exact absurd hz h16
    | bits32 => rfl
    | bits64 => exact absurd hz (operandSize_ne_bits64 (ne_long64_of_real_or_v8086 hm) _)

/-- In 64-bit mode a target is in bounds when it is canonical (R36). -/
theorem inBounds_targetAt_iff_of_long64 {i : Instr} {s : State} (hm : s.config.mode = .long64) :
    inBounds s.config (targetAt i s) ↔ canonical s.config.vaBits (BitVec.ofNat 64 (targetAt i s)) = true := by
  rw [← targetAllowed_of_long64 hm]
  exact (targetAllowed_iff _ _ (targetOffset_lt ..)).symm

/-- Settles O34: the bound of 64-bit mode is canonical form, and the sizes 16 do not arise there. -/
theorem generalProtectionIn64BitMode : Obligations.GeneralProtectionIn64BitMode := by
  intro i s hm hwf hl
  have hout := (not_congr (inBounds_targetAt_iff_of_long64 (i := i) hm)).trans Bool.eq_false_iff.symm
  obtain ⟨hiff, honly⟩ := exec_fault_of_mode hwf hl (targetFault_of_long64 hm s.ip) hout
  refine ⟨hiff, fun f hf => ?_, fun r hop => ?_, fun cc r hop => ?_⟩
  · obtain rfl := honly f hf
    exact ⟨rfl, rfl⟩
  · rw [Instr.wf, hop] at hwf
    obtain ⟨-, hsize⟩ := encodable_count_iff.mp hwf
    exact addressSize_ne_bits16 hm _ hsize
  · have hsize := operandSize_of_wf_near16 hwf hop
    simp [operandSize_of_long64 hm] at hsize

/-! ### The LOCK byte -/

/-- Settles O35: what is decoded is well-formed, and the shared step tests LOCK before all else. -/
theorem lockRaisesInvalidOpcode : Obligations.LockRaisesInvalidOpcode := by
  refine ⟨fun i s => exec_of_lock, fun s bs i rest hx hb hd hl => ?_, fun _ => ⟨rfl, rfl⟩⟩
  obtain ⟨hwf, -, -⟩ := encodeOfDecode s.config bs i rest hd
  rw [stepRunsTheDecodedInstruction s bs i rest hx hb hd, exec_of_lock hwf hl]

/-! ### A step that ends before an instruction is read -/

/-- Settles O44: bytes that are too few leave the outcome to the fetch behind them. -/
theorem fetchStopEndsTheStep : Obligations.FetchStopEndsTheStep := by
  intro s bs hx hb hd
  obtain ⟨hfault, hrefused⟩ := short_window hb hd
  exact ⟨fun f hf => step_of_fetchInstr_fault hx (hfault f hf),
    fun r hr => step_of_fetchInstr_refused hx (hrefused r hr)⟩

theorem step_of_decode_refused {s : State} {bs : List Byte} {r : DecodeRefusal} (hx : s.ip.toNat ∉ s.exits)
    (hb : fetchesBytes s s.ip bs) (hd : decode s.config bs = .refused r) : step s = .refused (refusalOf r) := by
  have hne : decode s.config bs ≠ .short := by simp [hd]
  exact step_of_fetchInstr_refused hx ((decode_window hb hne).2 r hd)

/-- Settles O45: each name of the decoder's refusals is a name of the step's. -/
theorem decoderRefusalEndsTheStep : Obligations.DecoderRefusalEndsTheStep := fun _ _ hx hb =>
  ⟨step_of_decode_refused hx hb, step_of_decode_refused hx hb, step_of_decode_refused hx hb⟩

/-! ### All a step can fault or be refused with -/

/-- Every fault of an instruction is `#UD` or the mode's general-protection fault, at the instruction (R126, R131). -/
theorem exec_fault {i : Instr} {s : State} {f : Fault} (h : exec i s = .fault f) :
    f = .ud s.ip ∨ f = targetFault s.config s.ip := by
  rw [exec_eq_execOp] at h
  rcases execOp_cases (opOf i) (prefixesOf i) s with
    ⟨-, e⟩ | ⟨-, -, e⟩ | ⟨-, -, -, e⟩ | ⟨-, -, -, -, e⟩ | ⟨-, -, -, -, e⟩ <;> rw [e] at h <;> cases h
  · exact .inl rfl
  · exact .inr rfl

/-- A well-formed instruction is not refused (R54, R58). -/
theorem exec_ne_refused {i : Instr} {s : State} (hwf : i.wf s.config = true) (r : Refusal) :
    exec i s ≠ .refused r := by
  intro h
  rw [exec_eq_execOp] at h
  rcases execOp_cases (opOf i) (prefixesOf i) s with
    ⟨hnwf, e⟩ | ⟨-, -, e⟩ | ⟨-, -, -, e⟩ | ⟨-, -, -, -, e⟩ | ⟨-, -, -, -, e⟩ <;> rw [e] at h <;> cases h
  rw [Instr.wf, hnwf] at hwf
  cases hwf

theorem fetch_fault {s : State} {off : Offset} {f : Fault} (h : fetch s off = .fault f) :
    f = targetFault s.config s.ip := by
  rcases fetch_cases s off with ⟨-, e⟩ | ⟨-, -, e⟩ | ⟨b, -, -, e⟩ <;> rw [e] at h <;> cases h
  rfl

theorem fetch_refused {s : State} {off : Offset} {r : Refusal} (h : fetch s off = .refused r) :
    r = .fetchOutsideImage off ∧ s.code.read off.toNat = none := by
  rcases fetch_cases s off with ⟨-, e⟩ | ⟨-, hread, e⟩ | ⟨b, -, -, e⟩ <;> rw [e] at h <;> cases h
  exact ⟨rfl, hread⟩

/-- All a step can do (R65, R71): it ends at the exit test, runs a well-formed instruction, ends in a refusal of the
decoder, or ends where a fetch faults or finds no byte. -/
theorem step_cases (s : State) :
    (s.finished ∧ step s = .refused .exit) ∨
    (∃ i : Instr, i.wf s.config = true ∧ step s = exec i s) ∨
    (∃ bs r, decode s.config bs = .refused r ∧ step s = .refused (refusalOf r)) ∨
    step s = .fault (targetFault s.config s.ip) ∨
    (∃ off : Offset, s.code.read off.toNat = none ∧ step s = .refused (.fetchOutsideImage off)) := by
  by_cases hx : s.ip.toNat ∈ s.exits
  · exact .inl ⟨hx, step_of_mem_exits hx⟩
  obtain ⟨bs, -, ⟨i, rest, hd, hi⟩ | ⟨r, hd, hr⟩ | ⟨-, ⟨f, hfetch, hf⟩ | ⟨r, hfetch, hr⟩⟩⟩ := fetchInstr_cases s
  · obtain ⟨hwf, -, -⟩ := encodeOfDecode s.config bs i rest hd
    exact .inr (.inl ⟨i, hwf, step_of_fetchInstr_next hx hi⟩)
  · exact .inr (.inr (.inl ⟨bs, r, hd, step_of_fetchInstr_refused hx hr⟩))
  · obtain rfl := fetch_fault hfetch
    exact .inr (.inr (.inr (.inl (step_of_fetchInstr_fault hx hf))))
  · obtain ⟨rfl, hread⟩ := fetch_refused hfetch
    exact .inr (.inr (.inr (.inr ⟨_, hread, step_of_fetchInstr_refused hx hr⟩)))

theorem step_fault {s : State} {f : Fault} (h : step s = .fault f) :
    f = .ud s.ip ∨ f = targetFault s.config s.ip := by
  rcases step_cases s with ⟨-, e⟩ | ⟨i, -, e⟩ | ⟨bs, r, -, e⟩ | e | ⟨off, -, e⟩ <;> rw [e] at h
  · cases h
  · exact exec_fault h
  · cases h
  · cases h
    exact .inr rfl
  · cases h

/-- A refused step: the end of the run, a refusal of the decoder, or an offset without a byte. -/
theorem step_refused {s : State} {r : Refusal} (h : step s = .refused r) :
    (r = .exit ∧ s.finished) ∨
    (∃ bs q, decode s.config bs = .refused q ∧ r = refusalOf q) ∨
    (∃ off : Offset, r = .fetchOutsideImage off ∧ s.code.read off.toNat = none) := by
  rcases step_cases s with ⟨hfin, e⟩ | ⟨i, hwf, e⟩ | ⟨bs, q, hd, e⟩ | e | ⟨off, hread, e⟩ <;> rw [e] at h
  · cases h
    exact .inl ⟨rfl, hfin⟩
  · exact absurd h (exec_ne_refused hwf r)
  · cases h
    exact .inr (.inl ⟨bs, q, hd, rfl⟩)
  · cases h
  · cases h
    exact .inr (.inr ⟨off, rfl, hread⟩)

theorem targetFault_offset (c : Config) (a : Offset) : (targetFault c a).offset = a := by
  unfold targetFault
  split <;> rfl

/-- Which general-protection fault a mode has (90_conflicts.md C5). -/
theorem targetFault_cases (c : Config) (a : Offset) :
    (c.mode = .real ∨ c.mode = .v8086) ∧ targetFault c a = .gp a ∨
    (c.mode = .protectedMode ∨ c.mode = .compat ∨ c.mode = .long64) ∧ targetFault c a = .gp0 a := by
  cases hm : c.mode <;> simp [targetFault, hm]

/-! ### When the decoder refuses a near form for its 66H -/

theorem long64_of_decodeNear_refused {c : Config} {p : Prefixes} {cc : Cond} {bs : List Byte} {r : DecodeRefusal}
    (h : decodeNear c p cc bs = .refused r) : c.mode = .long64 := by
  unfold decodeNear at h
  split at h
  next hrefused =>
    obtain ⟨hmode, -⟩ := hrefused
    exact hmode
  next => split at h <;> split at h <;> cases h

theorem long64_of_decodeOpcode_refused {c : Config} {p : Prefixes} {b : Byte} {bs : List Byte}
    (h : decodeOpcode c p b bs = .refused .nearJccWith66HIn64BitMode) : c.mode = .long64 := by
  unfold decodeOpcode at h
  split at h
  next => cases bs <;> cases h
  next =>
    split at h
    next => cases bs <;> cases h
    next =>
      split at h
      next =>
        cases bs with
        | nil => cases h
        | cons b' rest =>
          simp only at h
          split at h
          next => exact long64_of_decodeNear_refused h
          next => cases h
      next => cases h

/-- 66H before `0F 8x` is refused in 64-bit mode only (R53). -/
theorem long64_of_decodeFrom_refused {c : Config} {p : Prefixes} {bs : List Byte}
    (h : decodeFrom c p bs = .refused .nearJccWith66HIn64BitMode) : c.mode = .long64 := by
  induction bs generalizing p with
  | nil => cases h
  | cons b rest ih =>
    simp only [decodeFrom] at h
    split at h
    next =>
      split at h
      next => cases h
      next => exact ih h
    next => exact long64_of_decodeOpcode_refused h

/-- Settles O47: `#UD` or the mode's general-protection fault; a refusal of the decoder, of the fetch, or the end. -/
theorem stepFaultsAndRefusals : Obligations.StepFaultsAndRefusals := by
  refine ⟨fun s f h => ?_, fun s r h => ?_⟩
  · rcases step_fault h with rfl | rfl
    · exact ⟨rfl, .inl rfl⟩
    · exact ⟨targetFault_offset _ _, .inr (targetFault_cases _ _)⟩
  · rcases step_refused h with hexit | ⟨bs, q, hd, rfl⟩ | hoff
    · exact .inr (.inr (.inr (.inr hexit)))
    · cases q with
      | opcodeOutOfScope => exact .inl rfl
      | duplicatePrefix => exact .inr (.inl rfl)
      | nearJccWith66HIn64BitMode => exact .inr (.inr (.inl ⟨rfl, long64_of_decodeFrom_refused hd⟩))
    · exact .inr (.inr (.inr (.inl hoff)))

/-! ### Modes that behave alike -/

/-- All the machine reads of the configuration is the same in `d` as in `c`: whether it is 64-bit mode, the default
sizes, the limits, the checks on a target and the general-protection fault. -/
structure ReadsAlike (c d : Config) : Prop where
  long64_iff : d.mode = .long64 ↔ c.mode = .long64
  defOpSize : d.defOpSize = c.defOpSize
  defAddrSize : d.defAddrSize = c.defAddrSize
  csLimit : d.csLimit = c.csLimit
  vaBits : d.vaBits = c.vaBits
  targetAllowed : ∀ t, Machine.targetAllowed d t = Machine.targetAllowed c t
  targetFault : ∀ a, Machine.targetFault d a = Machine.targetFault c a

theorem readsAlike_v8086 {c : Config} (h : c.mode = .real) : ReadsAlike c { c with mode := .v8086 } :=
  ⟨by simp [h], rfl, rfl, rfl, rfl, fun t => by simp [targetAllowed, h], fun a => by simp [targetFault, h]⟩

theorem readsAlike_compat {c : Config} (h : c.mode = .protectedMode) : ReadsAlike c { c with mode := .compat } :=
  ⟨by simp [h], rfl, rfl, rfl, rfl, fun t => by simp [targetAllowed, h], fun a => by simp [targetFault, h]⟩

/-- `s` with another configuration. -/
def State.withConfig (s : State) (d : Config) : State := { s with config := d }

namespace ReadsAlike

variable {c d : Config}

theorem operandSize_eq (h : ReadsAlike c d) (p : Prefixes) : operandSize d p = operandSize c p := by
  simp only [operandSize, h.long64_iff, h.defOpSize]

theorem addressSize_eq (h : ReadsAlike c d) (p : Prefixes) : addressSize d p = addressSize c p := by
  simp only [addressSize, h.long64_iff, h.defAddrSize]

theorem encodable_eq (h : ReadsAlike c d) (p : Prefixes) (op : Op) : encodable d p op = encodable c p op := by
  unfold encodable formExists
  cases op <;> simp only [h.operandSize_eq, h.addressSize_eq, h.long64_iff]

theorem addOffset_eq (h : ReadsAlike c d) (a x : Offset) : addOffset d a x = addOffset c a x := by
  simp only [addOffset, h.long64_iff]

theorem targetFrom_eq (h : ReadsAlike c d) (p : Prefixes) (op : Op) (next : Offset) :
    targetFrom d p op next = targetFrom c p op next := by
  simp only [targetFrom, h.long64_iff, h.operandSize_eq]

theorem fetchable_eq (h : ReadsAlike c d) (off : Offset) : fetchable d off = fetchable c off := by
  simp only [fetchable, h.long64_iff, h.csLimit, h.vaBits]

/-! #### The decoder -/

theorem decodeNear_eq (h : ReadsAlike c d) (p : Prefixes) (cc : Cond) (bs : List Byte) :
    decodeNear d p cc bs = decodeNear c p cc bs := by
  simp only [decodeNear, h.long64_iff, h.operandSize_eq]

theorem decodeOpcode_eq (h : ReadsAlike c d) (p : Prefixes) (b : Byte) (bs : List Byte) :
    decodeOpcode d p b bs = decodeOpcode c p b bs := by
  simp only [decodeOpcode, h.addressSize_eq, h.decodeNear_eq]

theorem decodeFrom_eq (h : ReadsAlike c d) (p : Prefixes) (bs : List Byte) :
    decodeFrom d p bs = decodeFrom c p bs := by
  induction bs generalizing p with
  | nil => rfl
  | cons b rest ih => simp only [decodeFrom, ih, h.decodeOpcode_eq]

theorem decode_eq (h : ReadsAlike c d) (bs : List Byte) : decode d bs = decode c bs := h.decodeFrom_eq [] bs

/-! #### The fetch -/

variable {s : State}

theorem fetch_eq (h : ReadsAlike s.config d) (off : Offset) : fetch (s.withConfig d) off = fetch s off := by
  simp only [fetch, raise_gp, State.withConfig, h.fetchable_eq, h.targetFault]

theorem fetchWindow_eq (h : ReadsAlike s.config d) (n : Nat) (off : Offset) :
    fetchWindow (s.withConfig d) n off = fetchWindow s n off := by
  induction n generalizing off with
  | zero => rfl
  | succ n ih =>
    have hnext : addOffset (s.withConfig d).config off 1#64 = addOffset s.config off 1#64 := h.addOffset_eq off 1#64
    simp only [fetchWindow, h.fetch_eq, hnext, ih]

theorem fetchInstr_eq (h : ReadsAlike s.config d) : fetchInstr (s.withConfig d) = fetchInstr s := by
  have hwindow := h.fetchWindow_eq maxLength s.ip
  simp only [fetchInstr, State.withConfig, h.decode_eq] at hwindow ⊢
  rw [hwindow]

/-! #### The shared step and the machine's -/

theorem jumpTaken_eq (h : ReadsAlike s.config d) (p : Prefixes) (op : Op) :
    jumpTaken p op (s.withConfig d) = mapNext (·.withConfig d) (jumpTaken p op s) := by
  simp only [jumpTaken, nextOf, raise_gp, State.withConfig, h.addOffset_eq, h.targetFrom_eq, h.targetAllowed,
    h.targetFault]
  split <;> rfl

theorem execOp_eq (h : ReadsAlike s.config d) (p : Prefixes) (op : Op) :
    execOp op p (s.withConfig d) = mapNext (·.withConfig d) (execOp op p s) := by
  have hencodable : encodable (s.withConfig d).config p op = encodable s.config p op := h.encodable_eq p op
  have htaken : taken op (s.withConfig d) = taken op s := taken_setConfig op s d
  have hnext : nextOf p op (s.withConfig d) = nextOf p op s := h.addOffset_eq _ _
  cases he : encodable s.config p op with
  | false => rw [execOp_unencodable he, execOp_unencodable (hencodable.trans he)]; rfl
  | true =>
    have he' := hencodable.trans he
    by_cases hl : Prefix.lock ∈ p
    · rw [execOp_lock he hl, execOp_lock he' hl]; rfl
    · cases ht : taken op s with
      | false => rw [execOp_notTaken he hl ht, execOp_notTaken he' hl (htaken.trans ht), hnext]; rfl
      | true => rw [execOp_taken he hl ht, execOp_taken he' hl (htaken.trans ht), h.jumpTaken_eq]

/-- Under a configuration that reads alike a step is the same, and keeps the configuration it has. -/
theorem step_eq (h : ReadsAlike s.config d) : step (s.withConfig d) = mapNext (·.withConfig d) (step s) := by
  have hfetch := h.fetchInstr_eq
  by_cases hx : s.ip.toNat ∈ s.exits
  · have hx' : (s.withConfig d).ip.toNat ∈ (s.withConfig d).exits := hx
    rw [step_of_mem_exits hx, step_of_mem_exits hx']; rfl
  · have hx' : (s.withConfig d).ip.toNat ∉ (s.withConfig d).exits := hx
    cases hi : fetchInstr s with
    | next i =>
      rw [step_of_fetchInstr_next hx hi, step_of_fetchInstr_next hx' (hfetch.trans hi), exec_eq_execOp,
        exec_eq_execOp, h.execOp_eq]
    | fault f => rw [step_of_fetchInstr_fault hx hi, step_of_fetchInstr_fault hx' (hfetch.trans hi)]; rfl
    | refused r => rw [step_of_fetchInstr_refused hx hi, step_of_fetchInstr_refused hx' (hfetch.trans hi)]; rfl

end ReadsAlike

/-- Settles O48: the two modes of each pair read alike. -/
theorem v8086StepsAsReal : Obligations.V8086StepsAsReal := fun _ =>
  ⟨fun hm => (readsAlike_v8086 hm).step_eq, fun hm => (readsAlike_compat hm).step_eq⟩

end Sys2Proof.Machine
end

section
/-! PROOFS. The statements of 70_reset_and_hazards.md: the exit test, runs (what they keep, that they end or repeat, and
the smallest ones that never end), and laying an instruction out where the next step fetches. -/

namespace Sys2Proof.Machine

/-! ### The exit test -/

/-- Settles O46: `Exit` is the answer of the exit test and no other refusal goes by its name. -/
theorem exitComesFirst : Obligations.ExitComesFirst := by
  refine ⟨fun s => step_of_mem_exits, fun s h => ?_⟩
  rcases step_refused h with ⟨-, hfin⟩ | ⟨_, q, -, hq⟩ | ⟨_, hq, -⟩
  · exact hfin
  · cases q <;> cases hq
  · cases hq

/-! ### Runs of any machine -/

section

variable {M : Host.Core} {j k : Nat} {s t u : M.State}

theorem run_succ_of_next (h : M.step s = .next t) (k : Nat) : M.run (k + 1) s = M.run k t := by
  rw [Host.Core.run, h]

/-- A run of one step more that is still going made its first step. -/
theorem run_succ_next (h : M.run (k + 1) s = .next t) : ∃ u, M.step s = .next u ∧ M.run k u = .next t := by
  rw [Host.Core.run] at h
  split at h
  · next u hu => exact ⟨u, hu, h⟩
  · cases h
  · cases h

theorem run_add (h : M.run j s = .next u) (k : Nat) : M.run (j + k) s = M.run k u := by
  induction j generalizing s with
  | zero => cases h; rw [Nat.zero_add]
  | succ j ih =>
    obtain ⟨v, hstep, hrun⟩ := run_succ_next h
    rw [Nat.add_right_comm, run_succ_of_next hstep, ih hrun]

/-- A run that is still going was going after every smaller number of steps. -/
theorem run_next_of_le (hjk : j ≤ k) (h : M.run k s = .next t) : ∃ u, M.run j s = .next u := by
  induction j generalizing k s with
  | zero => exact ⟨s, rfl⟩
  | succ j ih =>
    cases k with
    | zero => exact absurd hjk (Nat.not_succ_le_zero j)
    | succ k =>
      obtain ⟨v, hstep, hrun⟩ := run_succ_next h
      rw [run_succ_of_next hstep]
      exact ih (Nat.le_of_succ_le_succ hjk) hrun

/-- A state that comes back to itself comes back as often as one likes. -/
theorem run_mul_of_run_eq_self {p : Nat} (h : M.run p u = .next u) (m : Nat) : M.run (p * m) u = .next u := by
  induction m with
  | zero => rfl
  | succ m ih => rw [Nat.mul_succ, run_add ih, h]

/-- A run that is in one state after `j` and after `k` steps is still going after any number of steps (R145). -/
theorem run_next_of_repeat (hjk : j < k) (hj : M.run j s = .next u) (hk : M.run k s = .next u) (m : Nat) :
    ∃ t, M.run m s = .next t := by
  obtain ⟨p, rfl⟩ := Nat.exists_eq_add_of_lt hjk
  rw [Nat.add_assoc, run_add hj] at hk
  have hlong : M.run (j + (p + 1) * m) s = .next u := (run_add hj _).trans (run_mul_of_run_eq_self hk m)
  exact run_next_of_le (Nat.le_add_left_of_le (Nat.le_mul_of_pos_left m p.succ_pos)) hlong

end

/-! ### What a run keeps -/

/-- Every step of a run writes `ip` and nothing else (R70). -/
theorem run_next_eq_withIp {k : Nat} {s t : State} (h : core.run k s = .next t) : t = s.withIp t.ip := by
  induction k generalizing s with
  | zero => cases h; rfl
  | succ k ih =>
    obtain ⟨u, hstep, hrun⟩ := run_succ_next h
    rw [ih hrun, step_next_eq_withIp hstep]
    rfl

/-- Settles O52: what a run reaches is its launch state with another `ip`, which no condition reads. -/
theorem runsKeepAllButIp : Obligations.RunsKeepAllButIp := by
  intro k s t h
  have ht := run_next_eq_withIp h
  refine ⟨ht, fun op => ?_⟩
  rw [ht, taken_withIp]

/-! ### The offsets a run passes -/

theorem Memory.mem_of_read {m : Memory} {a : Nat} {b : Byte} (h : m.read a = some b) : (a, b) ∈ m := by
  induction m with
  | nil => cases h
  | cons cell rest ih =>
    obtain ⟨k, v⟩ := cell
    rw [Memory.read] at h
    split at h
    · next hk => cases h; exact hk ▸ List.mem_cons_self
    · exact List.mem_cons_of_mem _ (ih h)

/-- A step that answers a next state fetched a byte at `ip`: no instruction is empty (R55). -/
theorem read_ip_of_step_next {s t : State} (h : step s = .next t) : ∃ b, s.code.read s.ip.toNat = some b := by
  obtain ⟨i, hi, -⟩ := exec_of_step_next h
  obtain ⟨bs, hb, ⟨j, rest, hd, -⟩ | ⟨r, -, hr⟩ | ⟨-, ⟨f, -, hf⟩ | ⟨r, -, hr⟩⟩⟩ := fetchInstr_cases s
  · cases bs with
    | nil => cases hd
    | cons b bs =>
      obtain ⟨hfetch, -⟩ := hb
      exact ⟨b, ((fetch_next_iff s s.ip b).mp hfetch).2⟩
  · rw [hi] at hr; cases hr
  · rw [hi] at hf; cases hf
  · rw [hi] at hr; cases hr

/-- The launch state `s` with `ip` at each offset of its code image: all the states its run can step on from. -/
def statesOnImage (s : State) : Finset State :=
  (s.code.map fun cell => s.withIp (BitVec.ofNat 64 cell.1)).toFinset

theorem card_statesOnImage_le (s : State) : (statesOnImage s).card ≤ s.code.length :=
  (List.toFinset_card_le _).trans (List.length_map _).le

/-- A state of the run from which the run goes on is the launch state with `ip` at an offset of the image. -/
theorem mem_statesOnImage {k : Nat} {s u v : State} (hrun : core.run k s = .next u) (hstep : step u = .next v) :
    u ∈ statesOnImage s := by
  have hu := run_next_eq_withIp hrun
  have hcode : u.code = s.code := by rw [hu]; rfl
  obtain ⟨b, hb⟩ := read_ip_of_step_next hstep
  rw [hcode] at hb
  exact List.mem_toFinset.mpr (List.mem_map.mpr ⟨_, Memory.mem_of_read hb, by
    rw [BitVec.ofNat_toNat, BitVec.setWidth_eq, ← hu]⟩)

/-- A run that goes on beyond as many steps as the image has bytes was in one state twice: the states it steps on from
are no more than the offsets of the image. -/
theorem exists_repeat_of_run_next {s t : State} (h : core.run (s.code.length + 1) s = .next t) :
    ∃ j k u, j < k ∧ k ≤ s.code.length ∧ core.run j s = .next u ∧ core.run k s = .next u := by
  have hgoing : ∀ k, k ≤ s.code.length → ∃ u : State, core.run k s = .next u ∧ u ∈ statesOnImage s := fun k hk => by
    obtain ⟨v, hv⟩ := run_next_of_le (Nat.succ_le_succ hk) h
    obtain ⟨u, hu⟩ := run_next_of_le k.le_succ hv
    obtain ⟨w, hstep, -⟩ := run_succ_next ((run_add hu 1).symm.trans hv)
    exact ⟨u, hu, mem_statesOnImage hu hstep⟩
  have hstate : Nonempty State := ⟨s⟩
  choose! reached hrun hmem using hgoing
  have hmaps : Set.MapsTo reached (Finset.range (s.code.length + 1)) (statesOnImage s) := fun k hk =>
    hmem k (Nat.le_of_lt_succ (Finset.mem_range.mp hk))
  have hcard : (statesOnImage s).card < (Finset.range (s.code.length + 1)).card := by
    rw [Finset.card_range]
    exact Nat.lt_succ_of_le (card_statesOnImage_le s)
  obtain ⟨j, hj, k, hk, hne, heq⟩ := Finset.exists_ne_map_eq_of_card_lt_of_maps_to hcard hmaps
  rw [Finset.mem_range, Nat.lt_succ_iff] at hj hk
  rcases Nat.lt_or_gt_of_ne hne with hlt | hlt
  · exact ⟨j, k, reached j, hlt, hk, hrun j hj, heq ▸ hrun k hk⟩
  · exact ⟨k, j, reached k, hlt, hj, hrun k hk, heq ▸ hrun j hj⟩

/-- Settles O53: a run that has not ended by then was in one state twice, and goes round from there. -/
theorem runsEndOrRepeat : Obligations.RunsEndOrRepeat := by
  intro s
  cases h : core.run (s.code.length + 1) s with
  | fault f => exact .inl ⟨_, le_rfl, .inl ⟨f, h⟩⟩
  | refused r => exact .inl ⟨_, le_rfl, .inr ⟨r, h⟩⟩
  | next t =>
    obtain ⟨j, k, u, hjk, hk, hrunj, hrunk⟩ := exists_repeat_of_run_next h
    exact .inr ⟨⟨j, k, u, hjk, Nat.le_succ_of_le hk, hrunj, hrunk⟩, run_next_of_repeat hjk hrunj hrunk⟩

/-! ### A taken jump to itself -/

theorem runsForever_of_step_eq_self {s : State} (h : step s = .next s) : runsForever s :=
  run_next_of_repeat (M := core) (j := 0) Nat.zero_lt_one rfl ((run_succ_of_next (M := core) h 0).trans rfl)

/-- The bytes of R145: an opcode and the offset that leads back to it. -/
def SelfJumpBytes (bs : List Byte) : Prop :=
  (∃ cc, bs = [shortOpcode cc, 0xFE#8]) ∨ bs = [0xE3#8, 0xFE#8] ∨
    (∃ cc, bs = [0x0F#8, nearOpcode cc, 0xFC#8, 0xFF#8]) ∨
    (∃ cc, bs = [0x0F#8, nearOpcode cc, 0xFA#8, 0xFF#8, 0xFF#8, 0xFF#8])

/-- `i` has no leading byte, and its offset takes back its length. -/
def JumpsToItself (i : Instr) : Prop :=
  prefixesOf i = [] ∧ relInt i = -(lengthOf (prefixesOf i) (opOf i) : Int)

theorem jumpsToItself_toInstr {op : Op} (h : relIntOf op = -(op.size : Int)) : JumpsToItself (op.toInstr []) := by
  refine ⟨prefixesOf_toInstr op [], ?_⟩
  rw [relInt_eq, opOf_toInstr, prefixesOf_toInstr, h, lengthOf, List.length_nil, Nat.zero_add]

/-- Near opcodes with the two or four offset bytes of R145 and nothing behind them are read as jumps to themselves. -/
theorem jumpsToItself_of_decodeNear (c : Config) (cc : Cond) (i : Instr) :
    (decodeNear c [] cc [0xFC#8, 0xFF#8] = .ok i [] → JumpsToItself i) ∧
    (decodeNear c [] cc [0xFA#8, 0xFF#8, 0xFF#8, 0xFF#8] = .ok i [] → JumpsToItself i) := by
  have h66 : ¬ (c.mode = .long64 ∧ Prefix.opSize ∈ ([] : Prefixes)) := fun h => List.not_mem_nil h.2
  unfold decodeNear
  rw [if_neg h66, if_neg h66]
  by_cases h16 : operandSize c [] = .bits16
  · rw [if_pos h16, if_pos h16]
    refine ⟨fun h => ?_, nofun⟩
    cases h
    exact jumpsToItself_toInstr (op := .near16 cc 0xFFFC#16) rfl
  · rw [if_neg h16, if_neg h16]
    refine ⟨nofun, fun h => ?_⟩
    cases h
    exact jumpsToItself_toInstr (op := .near32 cc 0xFFFFFFFA#32) rfl

theorem jumpsToItself_of_decode {c : Config} {bs : List Byte} {i : Instr} (hbs : SelfJumpBytes bs)
    (hd : decode c bs = .ok i []) : JumpsToItself i := by
  rcases hbs with ⟨cc, rfl⟩ | rfl | ⟨cc, rfl⟩ | ⟨cc, rfl⟩
  · cases (decode_shortOpcode c List.nodup_nil cc 0xFE#8 []).symm.trans hd
    exact jumpsToItself_toInstr (op := .short cc 0xFE#8) rfl
  · cases (decode_countOpcode c List.nodup_nil 0xFE#8 []).symm.trans hd
    exact jumpsToItself_toInstr (op := .count (addressSize c []) 0xFE#8) rfl
  · obtain ⟨hread, -⟩ := jumpsToItself_of_decodeNear c cc i
    exact hread ((decode_nearOpcode c List.nodup_nil cc [0xFC#8, 0xFF#8]).symm.trans hd)
  · obtain ⟨-, hread⟩ := jumpsToItself_of_decodeNear c cc i
    exact hread ((decode_nearOpcode c List.nodup_nil cc [0xFA#8, 0xFF#8, 0xFF#8, 0xFF#8]).symm.trans hd)

/-- The target of a jump to itself is `ip`, where operand size 16 does not cut it (R67, R68). -/
theorem targetAt_of_relInt_neg_length {i : Instr} {s : State} (hip : s.ip.toNat < 2 ^ ipBits s.config)
    (h16 : operandSize s.config (prefixesOf i) = .bits16 → s.ip.toNat ≤ 0xFFFF)
    (hr : relInt i = -(lengthOf (prefixesOf i) (opOf i) : Int)) : targetAt i s = s.ip.toNat := by
  have hsum : ((s.ip.toNat + lengthOf (prefixesOf i) (opOf i) : Nat) : Int) + relInt i = s.ip.toNat := by
    rw [hr]
    omega
  have hmod : ((s.ip.toNat : Int) % 2 ^ ipBits s.config).toNat = s.ip.toNat := by
    exact_mod_cast Nat.mod_eq_of_lt hip
  rw [targetAt, targetOffset, hsum, hmod]
  split
  case isTrue h => exact Nat.mod_eq_of_lt (Nat.lt_succ_of_le (h16 h))
  case isFalse => rfl

/-- Where instructions may be fetched a jump may go, but for the bound FFFFH (R29, R34 to R36). -/
theorem inBounds_of_fetchable {c : Config} {off : Offset} (hf : fetchable c off = true)
    (h64K : c.mode = .real ∨ c.mode = .v8086 → off.toNat ≤ 0xFFFF) : inBounds c off.toNat := by
  by_cases h64 : c.mode = .long64
  · rw [fetchable_of_long64 h64] at hf
    simpa [inBounds, h64] using (canonical_iff c.vaBits off).mp hf
  · have hle := (fetchable_iff_of_ne_long64 h64 off).mp hf
    cases hm : c.mode with
    | real => exact (inBounds_iff_of_real_or_v8086 (.inl hm) _).mpr ⟨hle, h64K (.inl hm)⟩
    | v8086 => exact (inBounds_iff_of_real_or_v8086 (.inr hm) _).mpr ⟨hle, h64K (.inr hm)⟩
    | protectedMode => exact (inBounds_iff_of_protected_or_compat (.inl hm) _).mpr hle
    | compat => exact (inBounds_iff_of_protected_or_compat (.inr hm) _).mpr hle
    | long64 => exact absurd hm h64

theorem ip_lt_of_inv {s : State} (hs : s.Inv) : s.ip.toNat < 2 ^ ipBits s.config := by
  obtain ⟨-, hip, -, -⟩ := hs
  by_cases hm : s.config.mode = .long64
  · rw [ipBits_long64 hm]; exact s.ip.isLt
  · rw [ipBits_other hm]; exact hip hm

/-- A taken jump to itself leaves the state as it is. -/
theorem exec_of_jumpsToItself {i : Instr} {s : State} (hi : JumpsToItself i) (hwf : i.wf s.config = true)
    (ht : takenAt i s = true) (hs : s.Inv) (hf : fetchable s.config s.ip = true)
    (h64K : s.config.mode = .real ∨ s.config.mode = .v8086 ∨ operandSize s.config [] = .bits16 →
      s.ip.toNat ≤ 0xFFFF) : exec i s = .next s := by
  obtain ⟨hp, hr⟩ := hi
  have htarget : targetAt i s = s.ip.toNat :=
    targetAt_of_relInt_neg_length (ip_lt_of_inv hs) (fun h16 => h64K (.inr (.inr (hp ▸ h16)))) hr
  have hb : inBounds s.config s.ip.toNat :=
    inBounds_of_fetchable hf fun hm => h64K (hm.elim .inl fun h => .inr (.inl h))
  have hl : Prefix.lock ∉ prefixesOf i := by rw [hp]; exact List.not_mem_nil
  rw [exec_of_inBounds hwf hl ht (htarget ▸ hb), htarget, BitVec.ofNat_toNat, BitVec.setWidth_eq]

/-- Settles O54: such bytes are read as a jump to itself, and its step answers the state it started from. -/
theorem takenSelfJumpNeverEnds : Obligations.TakenSelfJumpNeverEnds := by
  intro s i bs hs hx hb hd ht h64K hbs
  obtain ⟨hwf, -, -⟩ := encodeOfDecode s.config bs i [] hd
  have hf : fetchable s.config s.ip = true := by
    cases bs with
    | nil => cases hd
    | cons b bs =>
      obtain ⟨hfetch, -⟩ := hb
      exact ((fetch_next_iff s s.ip b).mp hfetch).1
  apply runsForever_of_step_eq_self
  rw [stepRunsTheDecodedInstruction s bs i [] hx hb hd]
  exact exec_of_jumpsToItself (jumpsToItself_of_decode hbs hd) hwf ht hs hf h64K

/-! ### Laying bytes out and fetching them -/

theorem offsetAfter_toNat (c : Config) {off : Offset} (h : off.toNat < 2 ^ ipBits c) (n : Nat) :
    (offsetAfter c off n).toNat = (off.toNat + n) % 2 ^ ipBits c := by
  induction n generalizing off with
  | zero => exact (Nat.mod_eq_of_lt h).symm
  | succ n ih =>
    have hnext := addOffset_toNat c off 1#64
    rw [offsetAfter, ih (hnext ▸ Nat.mod_lt _ (Nat.two_pow_pos _)), hnext, Nat.mod_add_mod, Nat.add_right_comm,
      Nat.add_assoc]
    rfl

/-- The offsets of fewer than `2^32` bytes are distinct. -/
theorem offsetAfter_succ_ne {c : Config} {off : Offset} (h : off.toNat < 2 ^ ipBits c) {n : Nat} (hn : n + 1 < 2 ^ 32) :
    (offsetAfter c off (n + 1)).toNat ≠ off.toNat := by
  rw [offsetAfter_toNat c h]
  have hb : ipBits c = 64 ∨ ipBits c = 32 := by unfold ipBits; split <;> simp
  rcases hb with hb | hb <;> rw [hb] at h ⊢ <;> omega

theorem addOffset_lt (c : Config) (a d : Offset) : (addOffset c a d).toNat < 2 ^ ipBits c := by
  rw [addOffset_toNat]
  exact Nat.mod_lt _ (Nat.two_pow_pos _)

/-- Laying bytes out leaves every other offset as it was. -/
theorem read_writeBytes_of_ne {c : Config} {m : Memory} {off : Offset} {bs : List Byte} {a : Nat}
    (h : ∀ k, k < bs.length → a ≠ (offsetAfter c off k).toNat) : (writeBytes c m off bs).read a = m.read a := by
  induction bs generalizing m off with
  | nil => rfl
  | cons b bs ih =>
    rw [writeBytes, ih fun k hk => h (k + 1) (Nat.succ_lt_succ hk)]
    exact m.read_write_of_ne b (h 0 bs.length.succ_pos)

/-- Bytes laid out are read back in the order of the fetch: no later one falls on the offset of an earlier one. -/
theorem read_writeBytes {c : Config} {m : Memory} {off : Offset} {bs : List Byte} (h : off.toNat < 2 ^ ipBits c)
    (hlen : bs.length ≤ 2 ^ 32) {k : Nat} {b : Byte} (hb : bs[k]? = some b) :
    (writeBytes c m off bs).read (offsetAfter c off k).toNat = some b := by
  induction bs generalizing m off k with
  | nil => cases hb
  | cons b' bs ih =>
    rw [List.length_cons] at hlen
    rw [writeBytes]
    cases k with
    | zero =>
      cases hb
      have hne : ∀ k, k < bs.length → off.toNat ≠ (offsetAfter c off (k + 1)).toNat := fun k hk =>
        (offsetAfter_succ_ne h (Nat.lt_of_lt_of_le (Nat.succ_lt_succ hk) hlen)).symm
      exact (read_writeBytes_of_ne hne).trans (m.read_write_same _ _)
    | succ k => exact ih (addOffset_lt c off 1#64) (by omega) hb

/-- Bytes that are fetched one by one are fetched as a run. -/
theorem fetchesBytes_of_forall_fetch {s : State} {off : Offset} {bs : List Byte}
    (h : ∀ k b, bs[k]? = some b → fetch s (offsetAfter s.config off k) = .next b) : fetchesBytes s off bs := by
  induction bs generalizing off with
  | nil => trivial
  | cons b bs ih => exact ⟨h 0 b rfl, ih fun k b' hb => h (k + 1) b' hb⟩

/-- A table word is laid out as nine bytes (R55, R57). -/
theorem tableBytes_length {nbits : Nat} (h : nbits ≤ 72) (w : Nat) : (tableBytes nbits w).length = 9 := by
  simp only [tableBytes, maxLength, List.length_append, List.length_map, List.length_range, List.length_replicate]
  omega

theorem withFetchWord_inv {s : State} (hs : s.Inv) (nbits w : Nat) : (s.withFetchWord nbits w).Inv := by
  obtain ⟨hcfg, hip, hcode, hexits⟩ := hs
  exact ⟨hcfg, hip, writeBytes_wf s.config _ s.code s.ip hcode, Exits.filter_wf hexits _⟩

theorem withFetchWord_ip_not_mem_exits (s : State) (nbits w : Nat) :
    (s.withFetchWord nbits w).ip.toNat ∉ (s.withFetchWord nbits w).exits := by
  simp [withFetchWord_exits]

theorem read_withFetchWord {s : State} (hs : s.Inv) {nbits : Nat} (hn : nbits ≤ 72) {w k : Nat} {b : Byte}
    (hb : (tableBytes nbits w)[k]? = some b) :
    (s.withFetchWord nbits w).code.read (offsetAfter s.config s.ip k).toNat = some b := by
  have hlen := tableBytes_length hn w
  exact read_writeBytes (ip_lt_of_inv hs) (by omega) hb

/-- Settles O56: the nine bytes do not fall on one another, so each is read back, and fetched where that is allowed. -/
theorem loadedInstructionIsFetched : Obligations.LoadedInstructionIsFetched := by
  intro s nbits w hs hn u
  refine ⟨rfl, rfl, rfl, rfl, rfl, rfl, rfl, rfl, withFetchWord_inv hs nbits w,
    withFetchWord_ip_not_mem_exits s nbits w, fun k b => read_withFetchWord hs hn, fun hf => ?_⟩
  refine fetchesBytes_of_forall_fetch fun k b hb => (fetch_next_iff u _ b).mpr ⟨?_, read_withFetchWord hs hn hb⟩
  obtain ⟨hk, -⟩ := List.getElem?_eq_some_iff.mp hb
  exact hf k (tableBytes_length hn w ▸ hk)

end Sys2Proof.Machine
end

section
/-! PROOFS. The statements of 41_jcc_rel8.md and 43_jcc_near.md on the flag-conditional jumps: each mnemonic, in each of
its forms, is the conditional jump on its row of the table of R63. The statements list the jumps form by form: rel8,
rel16, rel32. -/

namespace Sys2Proof.Machine

/-- The table of R63: what a condition says of the flags. `condHolds_iff_flagFormula` ties it to the machine's test. -/
def flagFormula (cc : Cond) (s : State) : Prop :=
  match cc with
  | .o => s.OF = true
  | .no => s.OF = false
  | .b => s.CF = true
  | .ae => s.CF = false
  | .e => s.ZF = true
  | .ne => s.ZF = false
  | .be => s.CF = true ∨ s.ZF = true
  | .a => s.CF = false ∧ s.ZF = false
  | .s => s.SF = true
  | .ns => s.SF = false
  | .p => s.PF = true
  | .np => s.PF = false
  | .l => s.SF ≠ s.OF
  | .ge => s.SF = s.OF
  | .le => s.ZF = true ∨ s.SF ≠ s.OF
  | .g => s.ZF = false ∧ s.SF = s.OF

theorem condHolds_iff_flagFormula (cc : Cond) (s : State) : condHolds cc s = true ↔ flagFormula cc s := by
  obtain ⟨rows, -⟩ := flagConditions
  obtain ⟨o, no, b, ae, e, ne, be, a, sign, ns, p, np, l, ge, le, g⟩ := rows s
  cases cc with
  | o => exact o
  | no => exact no
  | b => exact b
  | ae => exact ae
  | e => exact e
  | ne => exact ne
  | be => exact be
  | a => exact a
  | s => exact sign
  | ns => exact ns
  | p => exact p
  | np => exact np
  | l => exact l
  | ge => exact ge
  | le => exact le
  | g => exact g

/-- Whatever its mnemonic, its form and its leading bytes, an instruction whose test is the condition `cc` is the
conditional jump on the row of `cc`. -/
theorem jumpsWhen_flagFormula (cc : Cond) {i : Instr} (hi : takenAt i = condHolds cc) :
    JumpsWhen i (flagFormula cc) :=
  jumpsWhen_of_takenAt_iff fun s => by rw [hi, condHolds_iff_flagFormula]

/-- Settles O17: JO tests condition 0, JNO condition 1. -/
theorem jumpsOnOverflow : Obligations.JumpsOnOverflow := by
  intro p r8 r16 r32
  have o {i : Instr} := jumpsWhen_flagFormula (i := i) .o
  have no {i : Instr} := jumpsWhen_flagFormula (i := i) .no
  exact ⟨o rfl, no rfl, o rfl, no rfl, o rfl, no rfl⟩

/-- Settles O18: JB, JC and JNAE test condition 2, JAE, JNB and JNC condition 3. -/
theorem jumpsOnCarry : Obligations.JumpsOnCarry := by
  intro p r8 r16 r32
  have b {i : Instr} := jumpsWhen_flagFormula (i := i) .b
  have ae {i : Instr} := jumpsWhen_flagFormula (i := i) .ae
  exact ⟨b rfl, b rfl, b rfl, ae rfl, ae rfl, ae rfl,
    b rfl, b rfl, b rfl, ae rfl, ae rfl, ae rfl,
    b rfl, b rfl, b rfl, ae rfl, ae rfl, ae rfl⟩

/-- Settles O19: JE and JZ test condition 4, JNE and JNZ condition 5. -/
theorem jumpsOnZero : Obligations.JumpsOnZero := by
  intro p r8 r16 r32
  have e {i : Instr} := jumpsWhen_flagFormula (i := i) .e
  have ne {i : Instr} := jumpsWhen_flagFormula (i := i) .ne
  exact ⟨e rfl, e rfl, ne rfl, ne rfl,
    e rfl, e rfl, ne rfl, ne rfl,
    e rfl, e rfl, ne rfl, ne rfl⟩

/-- Settles O20: JBE and JNA test condition 6, JA and JNBE condition 7. -/
theorem jumpsOnCarryOrZero : Obligations.JumpsOnCarryOrZero := by
  intro p r8 r16 r32
  have be {i : Instr} := jumpsWhen_flagFormula (i := i) .be
  have a {i : Instr} := jumpsWhen_flagFormula (i := i) .a
  exact ⟨be rfl, be rfl, a rfl, a rfl,
    be rfl, be rfl, a rfl, a rfl,
    be rfl, be rfl, a rfl, a rfl⟩

/-- Settles O21: JS tests condition 8, JNS condition 9. -/
theorem jumpsOnSign : Obligations.JumpsOnSign := by
  intro p r8 r16 r32
  have sign {i : Instr} := jumpsWhen_flagFormula (i := i) .s
  have ns {i : Instr} := jumpsWhen_flagFormula (i := i) .ns
  exact ⟨sign rfl, ns rfl, sign rfl, ns rfl, sign rfl, ns rfl⟩

/-- Settles O22: JP and JPE test condition AH, JNP and JPO condition BH. -/
theorem jumpsOnParity : Obligations.JumpsOnParity := by
  intro p r8 r16 r32
  have even {i : Instr} := jumpsWhen_flagFormula (i := i) .p
  have odd {i : Instr} := jumpsWhen_flagFormula (i := i) .np
  exact ⟨even rfl, even rfl, odd rfl, odd rfl,
    even rfl, even rfl, odd rfl, odd rfl,
    even rfl, even rfl, odd rfl, odd rfl⟩

/-- Settles O23: JL and JNGE test condition CH, JGE and JNL condition DH. -/
theorem jumpsOnLess : Obligations.JumpsOnLess := by
  intro p r8 r16 r32
  have l {i : Instr} := jumpsWhen_flagFormula (i := i) .l
  have ge {i : Instr} := jumpsWhen_flagFormula (i := i) .ge
  exact ⟨l rfl, l rfl, ge rfl, ge rfl,
    l rfl, l rfl, ge rfl, ge rfl,
    l rfl, l rfl, ge rfl, ge rfl⟩

/-- Settles O24: JLE and JNG test condition EH, JG and JNLE condition FH. -/
theorem jumpsOnLessOrZero : Obligations.JumpsOnLessOrZero := by
  intro p r8 r16 r32
  have le {i : Instr} := jumpsWhen_flagFormula (i := i) .le
  have g {i : Instr} := jumpsWhen_flagFormula (i := i) .g
  exact ⟨le rfl, le rfl, g rfl, g rfl,
    le rfl, le rfl, g rfl, g rfl,
    le rfl, le rfl, g rfl, g rfl⟩

end Sys2Proof.Machine
end

section
/-! PROOFS. The statements of 30_encoding.md on the opcode E3H and on sample byte strings, from what the decoder reads
behind any leading bytes. -/

namespace Sys2Proof.Machine

/-- Settles O3: the address size alone selects among the three instructions of E3H. -/
theorem countOpcodeSelectsByAddressSize : Obligations.CountOpcodeSelectsByAddressSize := by
  intro c p r rest hp
  have key {z : Size} (hz : addressSize c p = z) :
      decode c (p.map prefixByte ++ 0xE3#8 :: r :: rest) = .ok (countInstr z p r) rest :=
    hz ▸ decode_countOpcode c hp r rest
  exact ⟨key, key, key⟩

/-- Settles O1: each string is a decoder rule at these bytes, under the sizes of its configuration. -/
theorem sampleWordsDecode : Obligations.SampleWordsDecode :=
  ⟨decode_shortOpcode _ (p := []) (by decide) .a 0x10#8 [],
    decode_shortOpcode _ (p := [.opSize, .lock]) (by decide) .e 0x80#8 [],
    decode_countOpcode _ (p := []) (by decide) 0x10#8 [],
    decode_countOpcode _ (p := []) (by decide) 0xF0#8 [],
    decode_countOpcode _ (p := [.opSize]) (by decide) 0x7F#8 [],
    (decode_nearOpcode _ (p := []) (by decide) .e _).trans (decodeNear_of_bits16 (by decide) .e 0x34#8 0x12#8 []),
    (decode_nearOpcode _ (p := []) (by decide) .g _).trans
      (decodeNear_of_ne_bits16 (by decide) (by decide) .g 0x78#8 0x56#8 0x34#8 0x12#8 [0x90#8])⟩

end Sys2Proof.Machine
end

section
/-! PROOFS. The statement of 10_state.md on the state after reset. -/

namespace Sys2Proof.Machine

/-- Settles O51: the reset configuration is well-formed, `ip` is below `2^32`, and nothing is loaded. -/
theorem resetMeetsInvariant : Obligations.ResetMeetsInvariant :=
  ⟨by decide, fun _ => by decide, reset_code_wf, by decide⟩

end Sys2Proof.Machine
end
